-- ==== Sys2Proof/Word.lean ====
section
/-! DEFINITION. The word types of the Isbeno 3240 and the numbers of its objects (spec 1.2, 1.8). -/

namespace Sys2Proof

/-- One byte of a record, of a buffer or of a bus. -/
abbrev Byte := BitVec 8

/-- A 16-bit field: ring counts, sizes, tags, lengths, offsets (spec 1.8). -/
abbrev Half := BitVec 16

/-- A 32-bit field: registers, the timebase and every timestamp (R186, R191). -/
abbrev Word := BitVec 32

/-- A 64-bit host address (R185). -/
abbrev Addr := BitVec 64

/-- A bus port, P0 to P3. -/
abbrev PortId := Fin 4

/-- A completion queue, CQ0 to CQ3. -/
abbrev CqId := Fin 4

/-- A request queue, RQ0 to RQ7. -/
abbrev RqId := Fin 8

/-- A trigger entry, T0 to T31. -/
abbrev TrigId := Fin 32

/-- A transaction slot: 0 to 55 are request slots, 56 to 63 trigger slots (R34). -/
abbrev SlotId := Fin 64

/-- An own-address slot of a port, S0 to S2. -/
abbrev OwnId := Fin 3

end Sys2Proof
end

