-- ==== Sys2Proof/Syntax.lean ====
section
/-! DEFINITION. The commands of the part: one constructor per row of spec/opcode_table.json, in the
table's order. An operand is what the event brings from outside the part: an announced count, an
acknowledge, a byte or a level seen on the wires, how a host access ended and the bytes it read.
The parameters of a management command stand in the MQ entry the part has taken (R170). -/

namespace Sys2Proof

/-- The 69 event latches, by kind and object (R183). -/
inductive Latch where
  | rqError (q : RqId)
  | cqError (n : CqId)
  | ringError
  | portFault (p : PortId)
  | portRecovered (p : PortId)
  | triggerDisabled (t : TrigId)
  | replyTaken (p : PortId) (o : OwnId)
  | ringEmpty (p : PortId)
  deriving DecidableEq, Repr

/-- Where a master lost arbitration (R20). -/
inductive LossPlace where
  | start | address | data | restart | stop
  deriving DecidableEq, Repr

/-- How an outside transfer ended: a STOP condition or a (repeated) START condition, each also when
it falls in the middle of a byte (R149). -/
inductive TransferEnding where
  | stop | restart
  deriving DecidableEq, Repr

/-- The commands and events of the part. `ok` tells whether a host access ended successfully (R185);
`data` are the bytes it read; `k` counts from the oldest access of its kind in flight; `ack` is the
acknowledge bit sampled; `won` is whether the engine made its own condition; `alerts` are the levels
of the ALERT# pins, bit p set when ALERTp# is low; `winner` is the address byte on the wires of the
master that won an address byte, examined for a loss at ADDRESS only (R148). -/
inductive Instr where
  /-- POWER_ON_RESET (R197). -/
  | powerOnReset
  /-- LINK_RESET (R197). -/
  | linkReset
  /-- SOFT_RESET (R188). -/
  | softReset (en : Bool)
  /-- CONTROLLER_ENABLE (R188). -/
  | controllerEnable
  /-- CONTROLLER_STOP (R195). -/
  | controllerStop
  /-- STOP_COMPLETE (R196). -/
  | stopComplete
  /-- GSR_STRAY_CLEAR (R189). -/
  | gsrStrayClear (value : Word)
  /-- ISR_CLEAR (R118). -/
  | isrClear (value : Word)
  /-- IMR_WRITE (R119). -/
  | imrWrite (value : Word)
  /-- REGISTER_WRITE (R186). -/
  | registerWrite (offset : BitVec 12) (nbytes : Nat) (value : Word)
  /-- MQ_POSTED_NOTIFY (R167). -/
  | mqPostedNotify (count : Half)
  /-- RQ_POSTED_NOTIFY (R26). -/
  | rqPostedNotify (q : RqId) (count : Half)
  /-- RECEIVE_RING_POSTED_NOTIFY (R161). -/
  | receiveRingPostedNotify (count : Half)
  /-- MCQ_CONSUMED_NOTIFY (R168). -/
  | mcqConsumedNotify (count : Half)
  /-- CQ_CONSUMED_NOTIFY (R109). -/
  | cqConsumedNotify (n : CqId) (count : Half)
  /-- STRAY_NOTIFY (R190). -/
  | strayNotify (side : Bool) (index : Byte) (count : Half)
  /-- BUS_MASTERING_CHANGE (R185). -/
  | busMasteringChange (enable : Bool)
  /-- ACCESS_TIMEOUT (R185). -/
  | accessTimeout (k : Nat)
  /-- HEADER_READ_END (R193). -/
  | headerReadEnd (ok : Bool) (data : Vector Byte 64)
  /-- MQ_ENTRY_TAKE (R169). -/
  | mqEntryTake
  /-- MQ_ENTRY_READ_END (R169). -/
  | mqEntryReadEnd (ok : Bool) (data : Vector Byte 64)
  /-- MQ_STATUS_WORD_WRITE_END (R169). -/
  | mqStatusWordWriteEnd (ok : Bool)
  /-- UNKNOWN_COMMAND (R170). -/
  | unknownCommand
  /-- IDENTIFY (R174). -/
  | identify
  /-- CREATE_COMPLETION_QUEUE (R107). -/
  | createCompletionQueue
  /-- DELETE_COMPLETION_QUEUE (R108). -/
  | deleteCompletionQueue
  /-- CREATE_REQUEST_QUEUE (R25). -/
  | createRequestQueue
  /-- DELETE_REQUEST_QUEUE (R42). -/
  | deleteRequestQueue
  /-- CONFIGURE_PORT (R177). -/
  | configurePort
  /-- ENABLE_PORT (R93). -/
  | enablePort
  /-- DISABLE_PORT (R59). -/
  | disablePort
  /-- RESTART_PORT (R101). -/
  | restartPort
  /-- SET_RECEIVE_RING (R160). -/
  | setReceiveRing
  /-- WRITE_IMAGE (R152). -/
  | writeImage
  /-- SET_REPLY (R154). -/
  | setReply
  /-- DEFINE_TRIGGER (R139). -/
  | defineTrigger
  /-- ENABLE_TRIGGERS (R140). -/
  | enableTriggers (alerts : BitVec 4)
  /-- DISABLE_TRIGGERS (R141). -/
  | disableTriggers
  /-- CLEAR_TRIGGER (R142). -/
  | clearTrigger
  /-- QUERY_TRIGGER (R181). -/
  | queryTrigger
  /-- SET_TICK (R125). -/
  | setTick
  /-- ABORT (R58). -/
  | abort
  /-- READ_PORT_STATISTICS (R182). -/
  | readPortStatistics
  /-- COMMAND_HOST_ACCESS_END (R170). -/
  | commandHostAccessEnd (ok : Bool) (data : List Byte)
  /-- MCQ_WRITE_SEQUENCE (R171). -/
  | mcqWriteSequence
  /-- EVENT_RECORD (R184). -/
  | eventRecord (l : Latch)
  /-- MCQ_RECORD_WRITE_END (R171). -/
  | mcqRecordWriteEnd (ok : Bool)
  /-- MCQ_STATUS_WORD_WRITE_END (R171). -/
  | mcqStatusWordWriteEnd (ok : Bool)
  /-- FETCH_TURN (R31). -/
  | fetchTurn
  /-- RQ_ENTRY_READ_END (R32). -/
  | rqEntryReadEnd (ok : Bool) (data : Vector Byte 64)
  /-- RQ_STATUS_WORD_WRITE_END (R29). -/
  | rqStatusWordWriteEnd (q : RqId) (k : Nat) (ok : Bool)
  /-- DISPATCH (R48). -/
  | dispatch (p : PortId)
  /-- STAGING_READ_END (R50). -/
  | stagingReadEnd (p : PortId) (ok : Bool) (data : List Byte)
  /-- ATTEMPT_BEGIN (R64). -/
  | attemptBegin (p : PortId)
  /-- MASTER_START (R67). -/
  | masterStart (p : PortId) (won : Bool)
  /-- MASTER_ADDRESS_BYTE (R72). -/
  | masterAddressByte (p : PortId) (ack : Bool)
  /-- MASTER_DATA_BYTE_SENT (R73). -/
  | masterDataByteSent (p : PortId) (ack : Bool)
  /-- MASTER_BYTE_RECEIVED (R74). -/
  | masterByteReceived (p : PortId) (byte : Byte)
  /-- COUNT_BYTE (R75). -/
  | countByte (p : PortId) (n : Byte)
  /-- CHECK_BYTE (R76). -/
  | checkByte (p : PortId) (ack : Bool) (byte : Byte)
  /-- REPEATED_START (R68). -/
  | repeatedStart (p : PortId) (won : Bool)
  /-- MASTER_STOP_COMPLETE (R77). -/
  | masterStopComplete (p : PortId)
  /-- SEGMENT_OPEN (R77). -/
  | segmentOpen (p : PortId)
  /-- ARBITRATION_LOSS (R78). -/
  | arbitrationLoss (p : PortId) (place : LossPlace) (winner : Byte)
  /-- RETRY_GAP_EXPIRY (R52). -/
  | retryGapExpiry (p : PortId)
  /-- DEADLINE_EXPIRY (R57). -/
  | deadlineExpiry (k : SlotId)
  /-- DRAINING_WRITE_END (R53). -/
  | drainingWriteEnd (p : PortId) (ok : Bool)
  /-- RECORD_SELECTION (R114). -/
  | recordSelection
  /-- RECORD_WRITE_END (R114). -/
  | recordWriteEnd (ok : Bool)
  /-- CQ_STATUS_WORD_WRITE_END (R114). -/
  | cqStatusWordWriteEnd (n : CqId) (k : Nat) (ok : Bool)
  /-- COALESCING_TIMER_EXPIRY (R117). -/
  | coalescingTimerExpiry (n : CqId)
  /-- BUS_START_SEEN (R88). -/
  | busStartSeen (p : PortId)
  /-- BUS_STOP_SEEN (R88). -/
  | busStopSeen (p : PortId)
  /-- IDLE_TIME_EXPIRY (R88). -/
  | idleTimeExpiry (p : PortId)
  /-- CLOCK_LOW_TIMEOUT (R96). -/
  | clockLowTimeout (p : PortId)
  /-- STUCK_DATA_TIMEOUT (R96). -/
  | stuckDataTimeout (p : PortId)
  /-- RECOVERY_SCL_HIGH (R97). -/
  | recoverySclHigh (p : PortId) (sdaHigh : Bool)
  /-- RECOVERY_PULSE (R97). -/
  | recoveryPulse (p : PortId) (sdaHigh : Bool)
  /-- RECOVERY_STOP (R98). -/
  | recoveryStop (p : PortId) (sclRose sdaRose : Bool)
  /-- RECOVERY_FINAL_WAIT_END (R98). -/
  | recoveryFinalWaitEnd (p : PortId)
  /-- RESTART_IDLE_WAIT_END (R101). -/
  | restartIdleWaitEnd (p : PortId)
  /-- RECOVERY_LIMIT_EXPIRY (R99). -/
  | recoveryLimitExpiry (p : PortId) (sclHigh : Bool)
  /-- ADDRESS_BYTE (R146). -/
  | addressByte (p : PortId) (byte : Byte)
  /-- IMAGE_WRITE_BYTE (R150). -/
  | imageWriteByte (p : PortId) (byte : Byte)
  /-- MAILBOX_WRITE_BYTE (R156). -/
  | mailboxWriteByte (p : PortId) (byte : Byte)
  /-- IMAGE_READ_BYTE (R151). -/
  | imageReadByte (p : PortId) (ack : Bool)
  /-- REPLY_READ_BYTE (R153). -/
  | replyReadByte (p : PortId) (ack : Bool)
  /-- TARGET_READ_CONFLICT (R149). -/
  | targetReadConflict (p : PortId)
  /-- TARGET_TRANSFER_END (R149). -/
  | targetTransferEnd (p : PortId) (ending : TransferEnding)
  /-- STRETCH_LIMIT_EXPIRY (R155). -/
  | stretchLimitExpiry (p : PortId)
  /-- TARGET_DRAIN_END (R158). -/
  | targetDrainEnd (p : PortId) (ok : Bool)
  /-- RECEIVE_FETCH_START (R162). -/
  | receiveFetchStart
  /-- RECEIVE_FETCH_END (R163). -/
  | receiveFetchEnd (ok : Bool) (data : Vector Byte 16)
  /-- RECEIVE_STATUS_WORD_WRITE_END (R160). -/
  | receiveStatusWordWriteEnd (k : Nat) (ok : Bool)
  /-- TICK (R125). -/
  | tick (alerts : BitVec 4)
  /-- PERIODIC_EXPIRY (R126). -/
  | periodicExpiry (t : TrigId)
  /-- END_OF_HOLDOFF (R127). -/
  | endOfHoldoff (t : TrigId) (alertLow : Bool)
  /-- ALERT_FALLING_TRANSITION (R128). -/
  | alertFallingTransition (p : PortId)
  /-- LINK_RESET_DEASSERTED (R197). -/
  | linkResetDeasserted
  /-- CONTROLLER_STATUS_WORD_WRITE_END (R192). -/
  | controllerStatusWordWriteEnd (k : Nat) (ok : Bool)  deriving DecidableEq, Repr

end Sys2Proof
end

