-- ==== Sys2Proof/Decode.lean ====
section
/-! DEFINITION. The command a word spells by the bits of the command table. No row of
spec/opcode_table.json gives bits: the part has no command encoding (its 64-byte MQ entries and
request entries are records, read by Machine/Operands.lean). -/

namespace Sys2Proof

/-- The command that the word `w` of `nbits` bits spells: none, since no row of the table gives
bits. -/
def decodeTableWord (_nbits _w : Nat) : Option Instr := none

end Sys2Proof
end

