-- ==== Sys2Proof/Machine/Bytes.lean ====
section
/-! DEFINITION. Byte order of records and registers (R199): fields are little-endian; a field read
beyond the bytes given reads 0. -/

namespace Sys2Proof.Machine

/-- Byte `i` of a record. -/
def byteAt (l : List Byte) (i : Nat) : Byte := l.getD i 0

/-- The 16-bit field at offset `i` (R199). -/
def rd16 (l : List Byte) (i : Nat) : Half := byteAt l (i + 1) ++ byteAt l i

/-- The 32-bit field at offset `i` (R199). -/
def rd32 (l : List Byte) (i : Nat) : Word := rd16 l (i + 2) ++ rd16 l i

/-- The 64-bit field at offset `i` (R199). -/
def rd64 (l : List Byte) (i : Nat) : Addr := rd32 l (i + 4) ++ rd32 l i

/-- A 16-bit field, least significant byte first (R199). -/
def le16 (x : Half) : List Byte := [x.extractLsb' 0 8, x.extractLsb' 8 8]

/-- A 32-bit field, least significant byte first (R199). -/
def le32 (x : Word) : List Byte := le16 (x.extractLsb' 0 16) ++ le16 (x.extractLsb' 16 16)

/-- A 16-bit field that holds a count. -/
def le16n (n : Nat) : List Byte := le16 (BitVec.ofNat 16 n)

/-- A one-byte field that holds a count. -/
def byteN (n : Nat) : Byte := BitVec.ofNat 8 n

/-- Bit `i` of a byte. -/
def bitAt (b : Byte) (i : Nat) : Bool := b.getLsbD i

/-- A byte whose bits, from bit 0, are the flags given. -/
def flagsByte (fs : List Bool) : Byte :=
  BitVec.ofNat 8 (fs.foldr (fun f n => 2 * n + f.toNat) 0)

/-- `n` reserved bytes, written as 0 (R200). -/
def zeros (n : Nat) : List Byte := List.replicate n 0

/-- `bytes` put over `area` from offset `i`; what falls outside the area is dropped. -/
def overlay (area : List Byte) (i : Nat) (bytes : List Byte) : List Byte :=
  (area.take i ++ bytes ++ area.drop (i + bytes.length)).take area.length

/-- The bits of a byte in the order they pass on a bus, most significant first (R65). -/
def busBits (b : Byte) : List Bool := [7, 6, 5, 4, 3, 2, 1, 0].map b.getLsbD

/-- An open-drain line is low while any device drives it low (R65). -/
def lineLow (drivers : List Bool) : Bool := drivers.any id

end Sys2Proof.Machine
end

