-- ==== Sys2Proof/Config.lean ====
section
/-! DEFINITION. What the part fixes once and for all: its numbers (spec 1.2, R174), its limits in
microseconds, and the bit timings of each speed class (R198). No value of the spec is left free. -/

namespace Sys2Proof.Config

/-- Vendor code, part code and revision (R187). -/
def vendorCode : Half := 0x0A5D
def partCode : Half := 0x3240
def revision : Byte := 0x02

/-- What IDR reads (section 12.7: A5D32402h). -/
def idr : Word := 0xA5D32402

/-- The slot pool: request slots come first (R34). -/
def requestSlots : Nat := 56
def triggerSlots : Nat := 8

/-- Transactions a port's pending list holds at most (R44). -/
def listCapacity : Nat := 32

/-- Records the holding list holds at most (R110). -/
def holdingCapacity : Nat := 32

/-- Bytes of one staging area (R8, R145). -/
def stagingBytes : Nat := 4096

/-- Bytes of an image (R145). -/
def imageBytes : Nat := 256

/-- A part of a host access fails when no report arrives within 50 ms (R185). -/
def accessLimit : Nat := 50000

/-- The recovery and restart waits are limited to 10 ms (R97, R98, R101). -/
def recoveryLimit : Nat := 10000

/-- Recovery gives at most nine clock pulses (R97). -/
def recoveryPulses : Nat := 9

/-- Pulses shorter than this, in nanoseconds, are not seen on the bus and alert inputs (R198). -/
def glitchFilter : Nat := 50

/-- The minimum bit timings of a speed class, in units of 10 ns (R198). -/
structure BitTiming where
  sclLow : Nat
  sclHigh : Nat
  period : Nat
  dataSetup : Nat
  dataHold : Nat
  startHold : Nat
  restartSetup : Nat
  stopSetup : Nat
  busFree : Nat
  deriving DecidableEq, Repr

/-- The three columns of R198's table. -/
def standardTiming : BitTiming := ⟨530, 470, 1000, 30, 40, 480, 480, 480, 500⟩
def fastTiming : BitTiming := ⟨140, 110, 250, 12, 15, 120, 130, 120, 150⟩
def fastPlusTiming : BitTiming := ⟨55, 45, 100, 6, 8, 50, 55, 50, 60⟩

end Sys2Proof.Config
end

