-- ==== Sys2Proof/Machine/State.lean ====
section
/-! DEFINITION. The state of the Isbeno 3240 as plain data: every register, context, list, buffer,
timer, counter and pin the spec gives it, the queue of commands that are waiting, and the state
right after reset. Each field's docstring cites the rule that names it. -/

namespace Sys2Proof.Machine

/-! ### Requests and transactions (chapters 1 to 3) -/

/-- The kind of a segment (R4); any other code is an unknown kind (R10). -/
inductive SegKind where
  | write | read | readCounted | unknown (code : Byte)
  deriving DecidableEq, Repr

/-- One used segment slot (R4). -/
structure Segment where
  kind : SegKind
  addr : BitVec 7
  join : Bool
  ignoreNack : Bool
  offset : Half
  length : Half
  deriving DecidableEq, Repr

/-- The 3240's own copy of a request entry or of a trigger template (R1, R2, R123): the header
fields as written and the segment slots in use. -/
structure Request where
  tag : Half
  port : Byte
  fence : Bool
  urgent : Bool
  notify : Bool
  suppress : Bool
  chk : Bool
  nseg : Byte
  arbRetries : BitVec 4
  nackRetries : BitVec 4
  retryGap : Byte
  deadline : Half
  buffer : Addr
  segs : List Segment
  deriving DecidableEq, Repr

/-- The result codes of R19. -/
inductive Result where
  | ok | addrNack | dataNack | arbLost | busTimeout | busFault | overlength | checkFail
  | deadline | aborted | portOff | hostFault | malformed | flushed | skipped
  deriving DecidableEq, Repr

/-- Where a transaction came from (R22, R44). -/
inductive Origin where
  | rq (q : RqId)
  | trigger (t : TrigId)
  deriving DecidableEq, Repr

/-- The state of a transaction that holds a slot: held by the fetch unit (R37), in a pending list
(R47), MALFORMED in the fetch unit's hand (R35), or its record handed to the completion writer
(R54). -/
inductive TxnState where
  | held | waiting | staging | ready | active | retryWait | draining | posting | malformed | recorded
  deriving DecidableEq, Repr

/-- What a trigger instance carries besides its template (R124, R131, R137). -/
structure InstanceData where
  sequence : Half
  trigTime : Word
  writeData : List Byte
  readArea : List Byte
  first : Bool
  deriving DecidableEq, Repr

/-- A transaction in its slot: the copy of its entry, where it stands, and what it will report
(R1, R12, R21, R22, R55). `started` is the start time once it is known; `gapFrom` is when the retry
gap began (R52); `takenAt` is when the entry was taken or the instance created (R13, R56). -/
structure Txn where
  req : Request
  origin : Origin
  port : PortId
  cq : CqId
  state : TxnState
  mark : Option Result
  takenAt : Word
  arbUsed : Nat
  nackUsed : Nat
  attempts : Nat
  started : Option Word
  gapFrom : Word
  result : Result
  detail : Byte
  segIndex : Nat
  writeCount : Nat
  readCount : Nat
  endTime : Word
  trig : Option InstanceData
  deriving DecidableEq, Repr

/-- One of the 64 transaction slots (R34): free, reserved for an entry read in progress (R32), or
occupied. -/
inductive Slot where
  | free
  | reserved
  | txn (t : Txn)
  deriving DecidableEq, Repr

/-! ### Request queues and the fetch unit (chapter 2) -/

/-- The states of a request queue (R24). -/
inductive RqState where
  | absent | running | error | deleting
  deriving DecidableEq, Repr

/-- Why a request queue entered ERROR (R23). -/
inductive RqReason where
  | nothing | count | entryRead | cqError | statusWrite
  deriving DecidableEq, Repr

/-- A request queue context (R23). -/
structure RqCtx where
  state : RqState
  base : Addr
  size : Half
  cq : CqId
  weight : Byte
  posted : Half
  taken : Half
  hold : Option SlotId
  openCount : Nat
  reason : RqReason
  deletePending : Bool
  deriving DecidableEq, Repr

/-- The arbiter's turn while its entry read is in progress (R31, R32): the queue served, the entries
taken in the turn so far, and the slot reserved for the read. -/
structure Turn where
  q : RqId
  count : Nat
  slot : SlotId
  deriving DecidableEq, Repr

/-- The fetch unit: last-served pointer and turn (R31), the MALFORMED transaction it is stalled on
(R35), and per port the queue whose held transaction it placed last (R39). -/
structure FetchUnit where
  lastServed : RqId
  turn : Option Turn
  stalled : Option SlotId
  placed : Vector RqId 4
  deriving DecidableEq, Repr

/-! ### Ports: master engine, supervision, target unit (chapters 3, 4, 5, 8) -/

/-- The phases of an attempt (R63). -/
inductive Phase where
  | none | opening | addressing | sending | receiving | checking | closing | between
  deriving DecidableEq, Repr

/-- The outcome of an attempt, once decided (R79). `retryExpired` is a retry decision during which the
transaction's deadline has expired, so that the transaction ends DEADLINE when it comes to RETRY_WAIT
(R52, R57). -/
inductive AttemptOutcome where
  | result (r : Result) (detail : Byte)
  | retry
  | retryExpired
  deriving DecidableEq, Repr

/-- The result a byte-boundary stop carries (R63, R82). -/
inductive StopResult where
  | aborted | deadline
  deriving DecidableEq, Repr

/-- The master engine's context (R63). `restart` tells, in phase OPENING, that a repeated START is
being made (R68); `quiet` that the engine conducts itself as at a controller stop (R85);
`closedAt` is when the STOP that led to BETWEEN was complete (R82). -/
structure Engine where
  phase : Phase
  segment : Nat
  bytePos : Nat
  countRecv : Option Byte
  crc : Byte
  writeCount : Nat
  readCount : Nat
  outcome : Option AttemptOutcome
  stopReq : Option StopResult
  restart : Bool
  quiet : Bool
  closedAt : Word
  deriving DecidableEq, Repr

/-- The speed classes (R84). -/
inductive Speed where
  | standard | fast | fastPlus
  deriving DecidableEq, Repr

/-- The roles of an own-address slot (R144). -/
inductive Role where
  | off | image | mailbox
  deriving DecidableEq, Repr

/-- The settings of one own-address slot (R144). -/
structure OwnSlot where
  addr : BitVec 7
  role : Role
  imageLen : Half
  deriving DecidableEq, Repr

/-- The settings CONFIGURE PORT replaces: supervision (R87) and target (R144). -/
structure Settings where
  speed : Speed
  idleTime : Byte
  busTimeout : Byte
  recovery : Bool
  targetEnable : Bool
  slots : Vector OwnSlot 3
  generalCall : Bool
  rxCq : Option CqId
  stretch : Byte
  deriving DecidableEq, Repr

/-- The states of a port (R90). -/
inductive PortState where
  | off | idle | observing | master | target | recovering | faulted
  deriving DecidableEq, Repr

/-- Why a port is FAULTED (R100). -/
inductive FaultReason where
  | clockLow | dataLow | sclStuck | sdaStuck
  deriving DecidableEq, Repr

/-- Where the recovery procedure or a restart stands, with the timebase from which its 10 ms limit
runs: waiting for SCL (R97 step 2), giving pulses (`given` so far, R97 step 3), making the STOP,
in the final wait (R98), or in the idle wait of a restart without recovery (R101). -/
inductive Recovery where
  | none
  | waitScl (since : Word)
  | pulsing (given : Nat) (since : Word)
  | stopping (since : Word)
  | finalWait (since : Word)
  | restartWait (since : Word)
  deriving DecidableEq, Repr

/-- The fourteen statistics counters of a port, in the order of R103's table. -/
structure Stats where
  completed : Word
  attempts : Word
  arbLosses : Word
  addrNacks : Word
  dataNacks : Word
  clockLow : Word
  stuckData : Word
  recoveries : Word
  faults : Word
  messages : Word
  refusedNoBuffer : Word
  refusedBusy : Word
  imageReads : Word
  repliesTaken : Word
  deriving DecidableEq, Repr

/-- A receive buffer: address, capacity and tag of its ring entry (section 12.5), and the completion
queue its RECEIVE record is for (R164). -/
structure RxBuffer where
  addr : Addr
  cap : Half
  tag : Half
  cq : CqId
  deriving DecidableEq, Repr

/-- The buffer at hand (R145, R162). -/
inductive AtHand where
  | nothing
  | wanted
  | fetching
  | present (b : RxBuffer)
  deriving DecidableEq, Repr

/-- What a matched write address names (R146): an own slot, or the general call. -/
inductive Addressed where
  | own (o : OwnId)
  | generalCall
  deriving DecidableEq, Repr

/-- The target transfer in progress (R145). `first` of an IMAGE_WRITE: its first data byte is still
to come (R150). `done` of a read: the master has refused a byte, so nothing more is driven (R149).
`pos` of a REPLY_READ: bytes sent (R153). `since` of DECIDING: when SCL was first held (R155). -/
inductive Transfer where
  | none
  | deciding (who : Addressed) (addr : BitVec 7) (since : Word)
  | imageWrite (o : OwnId) (first : Bool)
  | imageRead (o : OwnId) (done : Bool)
  | mailboxWrite
  | replyRead (o : OwnId) (pos : Nat) (done : Bool)
  | refused
  deriving DecidableEq, Repr

/-- The states of a reply slot (R153). -/
inductive ReplyState where
  | empty | loaded | reading
  deriving DecidableEq, Repr

/-- A reply slot and its bytes (R153). -/
structure Reply where
  state : ReplyState
  bytes : List Byte
  deriving DecidableEq, Repr

/-- A mailbox or general-call message (R156, R157). -/
structure Message where
  buffer : RxBuffer
  who : Addressed
  addr : BitVec 7
  addrTime : Word
  endTime : Word
  bytes : List Byte
  truncated : Bool
  endedByRestart : Bool
  abandoned : Bool
  deriving DecidableEq, Repr

/-- Target staging (R145): FREE, FILLING, DRAINING, POSTING. -/
inductive TStaging where
  | free
  | filling (m : Message)
  | draining (m : Message)
  | posting
  deriving DecidableEq, Repr

/-- A WRITE IMAGE or SET REPLY waiting for a read transfer to end (R152, R154). -/
inductive HeldUpdate where
  | image (o : OwnId) (offset : Nat) (bytes : List Byte)
  | reply (o : OwnId) (bytes : List Byte)
  deriving DecidableEq, Repr

/-- A completion record as it was made, the queue it is for, its NOTIFY flag and the slot it keeps
(R110). -/
structure HoldEntry where
  record : List Byte
  cq : CqId
  notify : Bool
  slot : Option SlotId
  deriving DecidableEq, Repr

/-- A RECEIVE record and the queue it is for; it keeps no slot and has no NOTIFY flag (R110). -/
structure ReceiveRecord where
  record : List Byte
  cq : CqId
  deriving DecidableEq, Repr

/-- A RECEIVE record a target unit has made and the holding list has not accepted (R158, R164);
`message` tells it is the record of the message in staging. -/
structure TargetRecord where
  receive : ReceiveRecord
  message : Bool
  deriving DecidableEq, Repr

/-- The target unit of a port (R145). -/
structure Target where
  transfer : Transfer
  images : Vector (List Byte) 3
  pointers : Vector Byte 3
  replies : Vector Reply 3
  staging : TStaging
  atHand : AtHand
  held : Option HeldUpdate
  disableTold : Bool
  records : List TargetRecord
  deriving DecidableEq, Repr

/-- One port: scheduler (R44), staging areas (R49, R74), master engine (R63), settings (R87, R144),
monitor and flags (R88, R89), state (R90), timers (R88, R95), fault reason (R100), recovery (R97),
statistics (R103), lines driven (R65, R90) and target unit (R145). A timer is held as the timebase
from which it has run at most. `awaitAddr` tells that a START was seen whose address byte is still
to come (R146). `tied` names the timeouts whose timers had reached the bus timeout when the end of an attempt
set them back at this very moment, so that their expiries may still be taken (R96): the model's own field.
`lastSent` and `lastAck` are the last byte and the last acknowledge bit (true: low,
acknowledged) the part put on the wires (R65): the model's own output. -/
structure Port where
  list : List SlotId
  inService : Option SlotId
  pendingResult : Option (Result × Byte)
  disablePending : Bool
  outbound : List Byte
  inbound : List (Nat × Byte)
  eng : Engine
  cfg : Settings
  busFree : Bool
  inStep : Bool
  awaitAddr : Bool
  state : PortState
  enabling : Bool
  idleFrom : Word
  clockLowFrom : Word
  stuckDataFrom : Word
  tied : List FaultReason
  reason : Option FaultReason
  recovery : Recovery
  stats : Stats
  sclDriven : Bool
  sdaDriven : Bool
  lastSent : Option Byte
  lastAck : Option Bool
  tgt : Target
  deriving DecidableEq, Repr

/-! ### Completion writer and receive unit (chapters 6 and 8) -/

/-- The states of a completion queue (R106). -/
inductive CqState where
  | absent | running | error
  deriving DecidableEq, Repr

/-- Why a completion queue entered ERROR (R105). -/
inductive CqReason where
  | nothing | count | hostFault
  deriving DecidableEq, Repr

/-- A completion queue context (R105). -/
structure CqCtx where
  state : CqState
  base : Addr
  size : Half
  k : Byte
  l : Half
  produced : Half
  consumed : Half
  unannounced : Nat
  timer : Option Word
  reason : CqReason
  deriving DecidableEq, Repr

/-- What the completion writer is doing (R114): nothing, writing a record, or writing the status
word that follows a record of queue `n`. -/
inductive Writer where
  | idle
  | record (e : HoldEntry)
  | status (n : CqId) (notify : Bool)
  deriving DecidableEq, Repr

/-- The blocks that wait with a refused offer, in the order of R111's search. -/
inductive OfferBlock where
  | sched (p : PortId)
  | target (p : PortId)
  | fetchUnit
  | receiveUnit
  deriving DecidableEq, Repr

/-- The holding list (R110), the block admitted last (R111), and the writer (R114). -/
structure Completion where
  holding : List HoldEntry
  lastAdmitted : OfferBlock
  writer : Writer
  deriving DecidableEq, Repr

/-- The states of the receive ring (R160). -/
inductive RxState where
  | absent | running | error
  deriving DecidableEq, Repr

/-- Why the receive ring entered ERROR (R160). -/
inductive RxReason where
  | nothing | count | entryRead | statusWrite
  deriving DecidableEq, Repr

/-- The receive ring context (R160). `fetch` names the port served and the completion queue the port
named when the fetch was started (R164). -/
structure RxRing where
  state : RxState
  base : Addr
  size : Half
  posted : Half
  taken : Half
  fetch : Option (PortId × CqId)
  waiting : Option ReceiveRecord
  lastServed : PortId
  reason : RxReason
  deriving DecidableEq, Repr

/-! ### Trigger unit (chapter 7) -/

/-- The states of a trigger entry (R121). -/
inductive TrigState where
  | empty | disabled | armed
  deriving DecidableEq, Repr

/-- The kinds of a trigger entry (R120). -/
inductive TrigKind where
  | periodic | alert
  deriving DecidableEq, Repr

/-- The report modes (R135). -/
inductive ReportMode where
  | always | onChange | onDelta | onError
  deriving DecidableEq, Repr

/-- The alert modes (R120). -/
inductive AlertMode where
  | edge | level
  deriving DecidableEq, Repr

/-- A trigger entry (R120). `holdoffEnded` marks an end of holdoff that came with a completion and
has not been taken yet (R127). -/
structure Trigger where
  state : TrigState
  kind : TrigKind
  template : Option Request
  writeData : List Byte
  cq : CqId
  mode : ReportMode
  mask : List Byte
  deadband : Half
  reportSkips : Bool
  failLimit : Byte
  reference : List Byte
  lastStatus : Result
  first : Bool
  consecutive : Byte
  instances : Half
  reports : Half
  skips : Half
  failures : Half
  sequence : Half
  outstanding : Bool
  phase : Half
  period : Half
  oneShot : Bool
  downCounter : Half
  alertPort : PortId
  alertMode : AlertMode
  holdoff : Half
  holdoffCtr : Half
  latched : Option Word
  holdoffEnded : Bool
  deriving DecidableEq, Repr

/-- The trigger unit: the table (R120), the prescaler value and the prescaler, held as its start or
last tick (R125), the expiries of the last tick not yet taken and its time (R130), and the ALERT#
pins as last reported, true when low (R127). -/
structure TrigUnit where
  entries : Vector Trigger 32
  tp : Half
  prescaler : Option Word
  tickDue : List TrigId
  tickTime : Word
  alertLow : Vector Bool 4
  deriving DecidableEq, Repr

/-! ### Management unit (chapter 9) -/

/-- Whose status word, and on what occasion, a write in flight is (R108, R113, R114). -/
inductive CqStatusFor where
  | record | change | create | delete
  deriving DecidableEq, Repr

/-- What a host access in flight is for (R185). -/
inductive AccessKind where
  | header
  | controllerStatus
  | mqEntry
  | mqStatus (atStart : Bool)
  | mcqRecord
  | mcqStatus (atStart : Bool)
  | cmdRead
  | cmdWrite
  | rqEntry (q : RqId)
  | rqStatus (q : RqId)
  | staging (p : PortId)
  | draining (p : PortId)
  | cqRecord
  | cqStatus (n : CqId) (why : CqStatusFor)
  | rxEntry
  | rxStatus
  | targetDrain (p : PortId)
  deriving DecidableEq, Repr

/-- The ranges of host memory an access reads, or the bytes it writes and where. -/
inductive Xfer where
  | read (ranges : List (Addr × Nat))
  | write (parts : List (Addr × List Byte))
  deriving DecidableEq, Repr

/-- A host access in flight (R185): what it is for, what it moves, when it was issued, a mark that
tells apart the accesses a waiting command waits for, whether bus mastering was disabled when it was
issued, so that it can only fail, and whether it is the one status word write for an entry to ERROR that
a failed write caused, after which nothing follows if it fails too (R29, R115, R160). -/
structure Access where
  kind : AccessKind
  xfer : Xfer
  issuedAt : Word
  forCommand : Bool
  doomed : Bool
  further : Bool
  deriving DecidableEq, Repr

/-- Which of the three port commands waits (R170). -/
inductive PortCommand where
  | enable | disable | restart
  deriving DecidableEq, Repr

/-- How far the command in hand has come (R169, R170): its MQ status word is being written; it is to
be executed; its host buffer access, or the status word write it completes with, is in flight; or it
waits for a port, for a deletion, for trigger instances, or for a held update. -/
inductive CmdPhase where
  | mqStatus
  | execute
  | hostAccess
  | statusWord
  | port (p : PortId) (w : PortCommand)
  | deleteRq (q : RqId)
  | instances (map : Word)
  | update (p : PortId)
  deriving DecidableEq, Repr

/-- The command in hand: its 64-byte entry (section 12.2) and how far it has come. -/
structure Command where
  entry : List Byte
  phase : CmdPhase
  deriving DecidableEq, Repr

/-- The MCQ write sequence in progress (R171): none, the record being written (of the completion due
or of an event), or the status word that follows it. -/
inductive McqSequence where
  | idle
  | record (completion : Bool)
  | status
  deriving DecidableEq, Repr

/-- A set event latch, the reason it captured and the timebase at its setting (R183). -/
structure SetLatch where
  latch : Latch
  reason : Byte
  time : Word
  deriving DecidableEq, Repr

/-- The management unit's context (R166), its MQ read (R169) and MCQ sequence (R171), whether a halt
has ended its MCQ writing (R173), and the latches that are set, in the order of their setting. -/
structure Mgmt where
  mqBase : Addr
  mqSize : Half
  mqPosted : Half
  mqTaken : Half
  mcqBase : Addr
  mcqSize : Half
  mcqProduced : Half
  mcqConsumed : Half
  command : Option Command
  reading : Bool
  due : Option (List Byte)
  sequence : McqSequence
  muted : Bool
  latches : List SetLatch
  deriving DecidableEq, Repr

/-! ### Host link, controller and interrupts (chapters 6 and 10) -/

/-- The controller states (R189). -/
inductive Ctrl where
  | disabled | starting | running | stopping | halted
  deriving DecidableEq, Repr

/-- The halt faults (R189). -/
inductive HaltFault where
  | nothing | startInvalid | setupFault | mqFetch | mcqWrite | mqCount | mcqCount
  deriving DecidableEq, Repr

/-- The host link unit's registers and inputs: controller state and EN (R188, R189), halt fault and
stray-notify (R189), SBL and SBH and the setup block base in use (R187), bus mastering enable
(R185), and the link reset input (R197). -/
structure Link where
  ctrl : Ctrl
  en : Bool
  haltFault : HaltFault
  stray : Bool
  sbl : Word
  sbh : Word
  setupBase : Addr
  busMaster : Bool
  linkReset : Bool
  deriving DecidableEq, Repr

/-- ISR and IMR (R118, R119), and the number of interrupt messages the host link unit has sent since
reset: the model's own output. -/
structure Ints where
  isr : Byte
  imr : Byte
  sent : Nat
  deriving DecidableEq, Repr

/-- The state of the part, and the queue of commands that are waiting, first in, first out. -/
structure State where
  pending : List Instr
  link : Link
  ints : Ints
  timebase : Word
  accesses : List Access
  mgmt : Mgmt
  rqs : Vector RqCtx 8
  slots : Vector Slot 64
  fetch : FetchUnit
  ports : Vector Port 4
  cqs : Vector CqCtx 4
  comp : Completion
  rx : RxRing
  trig : TrigUnit
  deriving DecidableEq, Repr

/-- Why the part stops with a fault. The part has no such stop (HALTED, ERROR and FAULTED are states
of it, and a command is answered with a status), so nothing raises the one constructor: safe. -/
inductive Fault where
  /-- Raised by nothing. Safe: no step ends in it. -/
  | unreachable
  deriving DecidableEq, Repr

/-- Why a command is refused by the model. -/
inductive Refusal where
  /-- Raised by an arm of `exec` that has no meaning yet; no arm is left so. Safe: the model stops. -/
  | notModelled (mnemonic : String)
  deriving DecidableEq, Repr

/-! ### Reset values -/

/-- A request queue's Reset column (R23). -/
def RqCtx.reset : RqCtx :=
  { state := .absent, base := 0, size := 0, cq := 0, weight := 1, posted := 0, taken := 0,
    hold := none, openCount := 0, reason := .nothing, deletePending := false }

/-- The fetch unit after a reset: pointer RQ7, no turn, no stall, placement pointers RQ7 (R31, R39). -/
def FetchUnit.reset : FetchUnit :=
  { lastServed := 7, turn := none, stalled := none, placed := Vector.replicate 4 7 }

/-- The master engine's Reset column (R63). -/
def Engine.reset : Engine :=
  { phase := .none, segment := 0, bytePos := 0, countRecv := none, crc := 0, writeCount := 0,
    readCount := 0, outcome := none, stopReq := none, restart := false, quiet := false,
    closedAt := 0 }

/-- The Reset columns of R87 and R144. -/
def Settings.reset : Settings :=
  { speed := .standard, idleTime := 5, busTimeout := 25, recovery := true, targetEnable := false,
    slots := Vector.replicate 3 { addr := 0, role := .off, imageLen := 1 },
    generalCall := false, rxCq := none, stretch := 10 }

/-- All counters 0 (R103). -/
def Stats.reset : Stats :=
  { completed := 0, attempts := 0, arbLosses := 0, addrNacks := 0, dataNacks := 0, clockLow := 0,
    stuckData := 0, recoveries := 0, faults := 0, messages := 0, refusedNoBuffer := 0,
    refusedBusy := 0, imageReads := 0, repliesTaken := 0 }

/-- An EMPTY reply slot (R153). -/
def Reply.reset : Reply := { state := .empty, bytes := [] }

/-- The target unit's Reset column (R145). -/
def Target.reset : Target :=
  { transfer := .none, images := Vector.replicate 3 (List.replicate Config.imageBytes 0),
    pointers := Vector.replicate 3 0, replies := Vector.replicate 3 Reply.reset, staging := .free,
    atHand := .nothing, held := none, disableTold := false, records := [] }

/-- A port after a reset: OFF, monitor BUSY, everything at its Reset value (R44, R63, R87 to R90,
R103, R145). -/
def Port.reset : Port :=
  { list := [], inService := none, pendingResult := none, disablePending := false, outbound := [],
    inbound := [], eng := Engine.reset, cfg := Settings.reset, busFree := false, inStep := false,
    awaitAddr := false, state := .off, enabling := false, idleFrom := 0, clockLowFrom := 0,
    stuckDataFrom := 0, tied := [], reason := none, recovery := .none, stats := Stats.reset, sclDriven := false,
    sdaDriven := false, lastSent := none, lastAck := none, tgt := Target.reset }

/-- A completion queue's Reset column (R105). -/
def CqCtx.reset : CqCtx :=
  { state := .absent, base := 0, size := 0, k := 1, l := 0, produced := 0, consumed := 0,
    unannounced := 0, timer := none, reason := .nothing }

/-- The completion writer after a reset (R110, R111, R114). -/
def Completion.reset : Completion :=
  { holding := [], lastAdmitted := .receiveUnit, writer := .idle }

/-- The receive ring's Reset column (R160). -/
def RxRing.reset : RxRing :=
  { state := .absent, base := 0, size := 0, posted := 0, taken := 0, fetch := none, waiting := none,
    lastServed := 3, reason := .nothing }

/-- A trigger entry's Reset column (R120). -/
def Trigger.reset : Trigger :=
  { state := .empty, kind := .periodic, template := none, writeData := List.replicate 16 0, cq := 0,
    mode := .always, mask := List.replicate 8 0, deadband := 1, reportSkips := false, failLimit := 0,
    reference := List.replicate 8 0, lastStatus := .ok, first := false, consecutive := 0,
    instances := 0, reports := 0, skips := 0, failures := 0, sequence := 0, outstanding := false,
    phase := 1, period := 1, oneShot := false, downCounter := 0, alertPort := 0, alertMode := .edge,
    holdoff := 0, holdoffCtr := 0, latched := none, holdoffEnded := false }

/-- The trigger unit after a reset: table EMPTY, TP 999, prescaler stopped (R120, R125). The pins
read not asserted: DESIGN CHOICE, the spec gives no level (log entry 3). -/
def TrigUnit.reset : TrigUnit :=
  { entries := Vector.replicate 32 Trigger.reset, tp := 999, prescaler := none, tickDue := [],
    tickTime := 0, alertLow := Vector.replicate 4 false }

/-- The management unit's Reset column (R166). -/
def Mgmt.reset : Mgmt :=
  { mqBase := 0, mqSize := 0, mqPosted := 0, mqTaken := 0, mcqBase := 0, mcqSize := 0,
    mcqProduced := 0, mcqConsumed := 0, command := none, reading := false, due := none,
    sequence := .idle, muted := false, latches := [] }

/-- The host link unit after power-on (R186, R197): DISABLED, registers 0, bus mastering disabled.
The setup block base 0 and the link reset input not asserted are DESIGN CHOICES (log entries 2, 3). -/
def Link.reset : Link :=
  { ctrl := .disabled, en := false, haltFault := .nothing, stray := false, sbl := 0, sbh := 0,
    setupBase := 0, busMaster := false, linkReset := false }

/-- ISR 0 and IMR FFh (R186). -/
def Ints.reset : Ints := { isr := 0, imr := 0xFF, sent := 0 }

/-- The part right after power-on reset (R197): every piece of state at its reset value, the
timebase 0, the controller DISABLED, and no command waiting. -/
def State.reset : State :=
  { pending := [], link := Link.reset, ints := Ints.reset, timebase := 0, accesses := [],
    mgmt := Mgmt.reset, rqs := Vector.replicate 8 RqCtx.reset,
    slots := Vector.replicate 64 Slot.free, fetch := FetchUnit.reset,
    ports := Vector.replicate 4 Port.reset, cqs := Vector.replicate 4 CqCtx.reset,
    comp := Completion.reset, rx := RxRing.reset, trig := TrigUnit.reset }

end Sys2Proof.Machine
end

