-- ==== Sys2Proof/Machine/Flags.lean ====
section
/-! DEFINITION. The check byte (R16) and the codes of results, states, reasons and faults as records,
status words and registers show them (R19, R20, R28, R113, R160, R183, R189, chapter 12). -/

namespace Sys2Proof.Machine

/-- One bit of the CRC-8 of R16: generator x⁸ + x² + x + 1, most significant bit first. -/
def crcBit (c : Byte) : Byte := if c.msb then (c <<< 1) ^^^ 0x07 else c <<< 1

/-- The running check value advanced by one byte (R16). -/
def crcByte (c b : Byte) : Byte :=
  crcBit (crcBit (crcBit (crcBit (crcBit (crcBit (crcBit (crcBit (c ^^^ b))))))))

/-- The result codes (R19). -/
def Result.code : Result → Byte
  | .ok => 0x00 | .addrNack => 0x01 | .dataNack => 0x02 | .arbLost => 0x03 | .busTimeout => 0x04
  | .busFault => 0x05 | .overlength => 0x06 | .checkFail => 0x07 | .deadline => 0x08
  | .aborted => 0x09 | .portOff => 0x0A | .hostFault => 0x0B | .malformed => 0x0C
  | .flushed => 0x0D | .skipped => 0x0E

/-- The detail of ARB_LOST (R20). -/
def lossDetail : LossPlace → Byte
  | .start => 1 | .address => 2 | .data => 3 | .restart => 4 | .stop => 5

/-- Fault reasons in records (R20, R100). -/
def FaultReason.code : FaultReason → Byte
  | .clockLow => 1 | .dataLow => 2 | .sclStuck => 3 | .sdaStuck => 4

/-- The detail values of HOST_FAULT (R20). -/
def detailStaging : Byte := 1
def detailDraining : Byte := 2

/-- The detail values of BUS_TIMEOUT (R20). -/
def detailClockLow : Byte := 1
def detailDataLow : Byte := 2

/-- The detail values of SKIPPED (R20). -/
def detailOverrun : Byte := 1
def detailNoRoom : Byte := 2

/-- The result a byte-boundary stop ends with (R82). -/
def StopResult.result : StopResult → Result
  | .aborted => .aborted
  | .deadline => .deadline

/-- Request queue state and reason codes (R28). -/
def RqState.code : RqState → Byte
  | .absent => 0 | .running => 1 | .error => 2 | .deleting => 3
def RqReason.code : RqReason → Byte
  | .nothing => 0 | .count => 1 | .entryRead => 2 | .cqError => 3 | .statusWrite => 4

/-- Completion queue state and reason codes (R113). -/
def CqState.code : CqState → Byte
  | .absent => 0 | .running => 1 | .error => 2
def CqReason.code : CqReason → Byte
  | .nothing => 0 | .count => 1 | .hostFault => 2

/-- Receive ring state and reason codes (R160). -/
def RxState.code : RxState → Byte
  | .absent => 0 | .running => 1 | .error => 2
def RxReason.code : RxReason → Byte
  | .nothing => 0 | .count => 1 | .entryRead => 2 | .statusWrite => 3

/-- Controller state and halt fault codes (R189). -/
def Ctrl.code : Ctrl → Byte
  | .disabled => 0 | .starting => 1 | .running => 2 | .stopping => 3 | .halted => 4
def HaltFault.code : HaltFault → Byte
  | .nothing => 0 | .startInvalid => 1 | .setupFault => 2 | .mqFetch => 3 | .mcqWrite => 4
  | .mqCount => 5 | .mcqCount => 6

/-- Trigger codes of the definition and the query record (section 12.4). -/
def TrigState.code : TrigState → Byte
  | .empty => 0 | .disabled => 1 | .armed => 2
def TrigKind.code : TrigKind → Byte
  | .periodic => 0 | .alert => 1
def ReportMode.code : ReportMode → Byte
  | .always => 0 | .onChange => 1 | .onDelta => 2 | .onError => 3
def AlertMode.code : AlertMode → Byte
  | .edge => 0 | .level => 1

/-- The origin of a transaction record (R22, section 12.3). -/
def Origin.code : Origin → Byte
  | .rq q => BitVec.ofNat 8 q.val
  | .trigger _ => 0x10

/-- Kind and object number of an event record (sections 12.3, R184). -/
def latchKind : Latch → Byte
  | .rqError _ => 1 | .cqError _ => 2 | .ringError => 3 | .portFault _ => 4 | .portRecovered _ => 5
  | .triggerDisabled _ => 6 | .replyTaken _ _ => 7 | .ringEmpty _ => 8
def latchObject : Latch → Byte
  | .rqError q => byteN q.val | .cqError n => byteN n.val | .ringError => 0
  | .portFault p => byteN p.val | .portRecovered p => byteN p.val
  | .triggerDisabled t => byteN t.val | .replyTaken p _ => byteN p.val | .ringEmpty p => byteN p.val
def latchSlot : Latch → Byte
  | .replyTaken _ o => byteN o.val
  | _ => 0

/-- The status codes of command completions (R172). -/
inductive Status where
  | success | unknownCommand | invalidField | invalidId | already | inUse | wrongState | hostFault
  | stuck
  deriving DecidableEq, Repr

/-- Their values (R172); `already` is EXISTS. -/
def Status.code : Status → Byte
  | .success => 0 | .unknownCommand => 1 | .invalidField => 2 | .invalidId => 3 | .already => 4
  | .inUse => 5 | .wrongState => 6 | .hostFault => 7 | .stuck => 8

end Sys2Proof.Machine
end

