-- ==== Sys2Proof/Machine/Operands.lean ====
section
/-! DEFINITION. Reading the records the host writes (chapter 12): request entries and their
validation (R10), trigger definitions (R123, R139), port settings (R177), the setup block header
(R193). Reserved bits and bytes are ignored (R200). -/

namespace Sys2Proof.Machine

/-! ### Request entries (section 12.1) -/

/-- The kind code of a segment (section 12.1). -/
def segKind (b : Byte) : SegKind :=
  if b = 1 then .write else if b = 2 then .read else if b = 3 then .readCounted else .unknown b

/-- Segment slot `i` of an entry (section 12.1); bit 7 of the address byte is reserved. -/
def parseSegment (e : List Byte) (i : Nat) : Segment :=
  let o := 24 + 8 * i
  { kind := segKind (byteAt e o), addr := (byteAt e (o + 1)).extractLsb' 0 7,
    join := bitAt (byteAt e (o + 2)) 0, ignoreNack := bitAt (byteAt e (o + 2)) 1,
    offset := rd16 e (o + 4), length := rd16 e (o + 6) }

/-- A 64-byte request entry (section 12.1). Only segment slots 0 to nseg − 1 are interpreted (R1). -/
def parseRequest (e : List Byte) : Request :=
  let flags := byteAt e 3
  let nseg := byteAt e 4
  { tag := rd16 e 0, port := byteAt e 2, fence := bitAt flags 0, urgent := bitAt flags 1,
    notify := bitAt flags 2, suppress := bitAt flags 3, chk := bitAt flags 4, nseg := nseg,
    arbRetries := (byteAt e 5).extractLsb' 0 4, nackRetries := (byteAt e 5).extractLsb' 4 4,
    retryGap := byteAt e 6, deadline := rd16 e 8, buffer := rd64 e 16,
    segs := ((List.range 5).take nseg.toNat).map (parseSegment e) }

/-- Whether a segment reads: READ or READ_COUNTED (R4). -/
def Segment.reads (g : Segment) : Bool :=
  match g.kind with
  | .read => true
  | .readCounted => true
  | _ => false

/-- Whether a segment writes (R4). -/
def Segment.writes (g : Segment) : Bool :=
  match g.kind with
  | .write => true
  | _ => false

/-- Whether the kind is one of the three of R4. -/
def Segment.known (g : Segment) : Bool := g.reads || g.writes

/-- The first byte after a segment's range (R7). -/
def Segment.rangeEnd (g : Segment) : Nat := g.offset.toNat + g.length.toNat

/-- Whether two ranges share a byte (R7); an empty range overlaps nothing. -/
def rangesMeet (a b : Segment) : Bool :=
  decide (0 < a.length.toNat) && decide (0 < b.length.toNat) &&
    decide (a.offset.toNat < b.rangeEnd) && decide (b.offset.toNat < a.rangeEnd)

/-- The length range R4 gives for the kind. -/
def Segment.lengthOk (g : Segment) : Bool :=
  decide (g.length.toNat ≤ 4095) && (g.writes || decide (1 ≤ g.length.toNat))

/-- The total write bytes and the total read bytes of a transaction (R8). -/
def Request.writeBytes (r : Request) : Nat :=
  ((r.segs.filter Segment.writes).map fun g => g.length.toNat).sum
def Request.readBytes (r : Request) : Nat :=
  ((r.segs.filter Segment.reads).map fun g => g.length.toNat).sum

/-- Segment `i` of a request. -/
def Request.seg (r : Request) (i : Nat) : Segment :=
  r.segs.getD i { kind := .unknown 0, addr := 0, join := false, ignoreNack := false, offset := 0, length := 0 }

/-- Whether segment `i` is the last used one. -/
def Request.isLast (r : Request) (i : Nat) : Bool := decide (i + 1 = r.nseg.toNat)

/-- The per-segment conditions of R10, in order, as detail values; the first that holds. -/
def segmentError (r : Request) (i : Nat) : Option Byte :=
  let g := r.seg i
  if !g.known then some 3
  else if 0x78 ≤ g.addr.toNat then some 4
  else if g.addr = 0 && !g.writes then some 5
  else if !g.lengthOk then some 6
  else if 65536 < g.rangeEnd then some 7
  else if g.join && r.isLast i then some 8
  else none

/-- The first per-segment condition over the segments in order, with its segment (R10). -/
def firstSegmentError (r : Request) : List Nat → Option (Byte × Nat)
  | [] => none
  | i :: is =>
    match segmentError r i with
    | some d => some (d, i)
    | none => firstSegmentError r is

/-- Whether segment `j` is the higher-numbered of an overlapping pair with a read range (R7, R10). -/
def overlapsLower (r : Request) (j : Nat) : Bool :=
  (List.range j).any fun i =>
    ((r.seg i).reads || (r.seg j).reads) && rangesMeet (r.seg i) (r.seg j)

/-- R10: the detail value and the segment index of the first condition that holds, or none for a
well-formed entry. -/
def malformation (r : Request) : Option (Byte × Nat) :=
  if 4 ≤ r.port.toNat then some (1, 0)
  else if r.nseg = 0 || decide (5 < r.nseg.toNat) then some (2, 0)
  else
    match firstSegmentError r (List.range r.nseg.toNat) with
    | some e => some e
    | none =>
      match (List.range r.nseg.toNat).find? (overlapsLower r) with
      | some j => some (9, j)
      | none =>
        if 4096 < r.writeBytes then some (10, 0)
        else if 4096 < r.readBytes then some (11, 0)
        else if r.chk && (r.seg (r.nseg.toNat - 1)).writes &&
            (r.seg (r.nseg.toNat - 1)).length = 0 then some (12, r.nseg.toNat - 1)
        else none

/-- The port field reduced modulo 4 (R11); the port itself when it is valid. -/
def portOf (b : Byte) : PortId := ⟨b.toNat % 4, Nat.mod_lt _ (by decide)⟩

/-- Where in outbound staging the bytes of segment `i` begin: the WRITE ranges lie one after another
in segment order (R8, R49). -/
def outboundStart (r : Request) (i : Nat) : Nat :=
  (((r.segs.take i).filter Segment.writes).map fun g => g.length.toNat).sum

/-- The host address of a segment's range (R7). R7 does not say what buffer + offset past the last host
address means; the sum wraps modulo 2^64. DESIGN CHOICE (log entry 44). -/
def rangeAddr (r : Request) (g : Segment) : Addr := r.buffer + g.offset.setWidth 64

/-- The ranges a staging read fetches: WRITE ranges of length above 0, in segment order (R8, R49). -/
def stagingRanges (r : Request) : List (Addr × Nat) :=
  (r.segs.filter fun g => g.writes && decide (0 < g.length.toNat)).map fun g =>
    (rangeAddr r g, g.length.toNat)

/-- The received bytes of segment `i`, in order of arrival (R74). -/
def receivedOf (inbound : List (Nat × Byte)) (i : Nat) : List Byte :=
  (inbound.filter fun x => decide (x.1 = i)).map Prod.snd

/-- What the draining write stores: each reading segment's received bytes at its range (R8, R53). -/
def drainParts (r : Request) (inbound : List (Nat × Byte)) : List (Addr × List Byte) :=
  ((List.range r.segs.length).map fun i => (rangeAddr r (r.seg i), receivedOf inbound i)).filter
    fun x => !x.2.isEmpty

/-- The read area of an instance: the received bytes laid at their segments' offsets over eight
bytes of 00h (R124). -/
def readAreaOf (r : Request) (inbound : List (Nat × Byte)) : List Byte :=
  (List.range r.segs.length).foldl
    (fun area i => overlay area (r.seg i).offset.toNat (receivedOf inbound i)) (zeros 8)

/-- An instance's bytes for outbound staging: its WRITE ranges of the write data, in segment order
(R124). -/
def writeAreaBytes (r : Request) (writeData : List Byte) : List Byte :=
  (r.segs.filter Segment.writes).flatMap fun g =>
    (writeData.drop g.offset.toNat).take g.length.toNat

/-! ### Commands (section 12.2) -/

/-- The opcode of an MQ entry and its command tag (section 12.2). -/
def opcode (e : List Byte) : Byte := byteAt e 0
def commandTag (e : List Byte) : Half := rd16 e 2

/-- A number field as an identifier, or none where it names no object of its kind. -/
def asId (n : Nat) (b : Byte) : Option (Fin n) :=
  if h : b.toNat < n then some ⟨b.toNat, h⟩ else none

/-- A ring base is 64-byte aligned (R23, R105, R160, R193). -/
def aligned64 (a : Addr) : Bool := a.extractLsb' 0 6 == 0

/-- A ring size is a power of two in `lo` to `hi`. -/
def sizeOk (n lo hi : Nat) : Bool :=
  decide (lo ≤ n) && decide (n ≤ hi) && [4, 8, 16, 32, 64, 128, 256, 512, 1024, 2048, 4096].contains n

/-- Speed class and role codes (section 12.2). -/
def parseSpeed (b : Byte) : Option Speed :=
  if b = 0 then some .standard else if b = 1 then some .fast else if b = 2 then some .fastPlus else none
def parseRole (b : Byte) : Option Role :=
  if b = 0 then some .off else if b = 1 then some .image else if b = 2 then some .mailbox else none

/-- The receive CQ field: 0 to 3, or FFh for none (section 12.2); the outer option is the check. -/
def parseRxCq (b : Byte) : Option (Option CqId) :=
  if b = 0xFF then some none else (asId 4 b).map some

/-- Own-address slot `i` of CONFIGURE PORT (section 12.2). -/
def parseOwnSlot (e : List Byte) (i : Nat) : Option OwnSlot :=
  (parseRole (byteAt e (17 + 4 * i))).map fun role =>
    { addr := (byteAt e (16 + 4 * i)).extractLsb' 0 7, role := role, imageLen := rd16 e (18 + 4 * i) }

/-- The settings of CONFIGURE PORT, or none where the first INVALID_FIELD check of R177 fails. -/
def parseSettings (e : List Byte) : Option Settings :=
  match parseSpeed (byteAt e 9), parseOwnSlot e 0, parseOwnSlot e 1, parseOwnSlot e 2,
    parseRxCq (byteAt e 13) with
  | some speed, some s0, some s1, some s2, some rxCq =>
    if byteAt e 10 = 0 || byteAt e 14 = 0 then none
    else some
      { speed := speed, idleTime := byteAt e 10, busTimeout := byteAt e 11,
        recovery := bitAt (byteAt e 12) 0, targetEnable := bitAt (byteAt e 12) 1,
        slots := #v[s0, s1, s2], generalCall := bitAt (byteAt e 12) 2, rxCq := rxCq,
        stretch := byteAt e 14 }
  | _, _, _, _, _ => none

/-- Whether a slot is not OFF (R144). -/
def OwnSlot.on (o : OwnSlot) : Bool := o.role != .off

/-- R177: every slot not OFF has an address in 01h–77h and no two such slots share one. -/
def slotsOk (v : Vector OwnSlot 3) : Bool :=
  v.toList.all (fun o => !o.on || (decide (o.addr ≠ 0) && decide (o.addr.toNat ≤ 0x77))) &&
    [(0, 1), (0, 2), (1, 2)].all fun (x : OwnId × OwnId) =>
      !((v.get x.1).on && (v.get x.2).on && decide ((v.get x.1).addr = (v.get x.2).addr))

/-- R177: every IMAGE slot has an image length of 1 to 256. -/
def imagesOk (v : Vector OwnSlot 3) : Bool :=
  v.toList.all fun o =>
    o.role != .image || (decide (1 ≤ o.imageLen.toNat) && decide (o.imageLen.toNat ≤ 256))

/-- Whether the settings take messages: a MAILBOX slot, or general call accepted (R144, R162). -/
def Settings.takesMessages (c : Settings) : Bool :=
  c.slots.toList.any (fun o => o.role == .mailbox) || c.generalCall

/-! ### Trigger definitions (section 12.4) -/

/-- A template is valid (R123): the conditions of R10 with the ranges of the on-chip areas, overlap
among read ranges only, and neither FENCE nor SUPPRESS. -/
def templateOk (r : Request) : Bool :=
  decide (r.port.toNat < 4) && decide (1 ≤ r.nseg.toNat) && decide (r.nseg.toNat ≤ 5) &&
  !r.fence && !r.suppress &&
  (List.range r.nseg.toNat).all (fun i =>
    segmentError r i == none && decide ((r.seg i).rangeEnd ≤ if (r.seg i).writes then 16 else 8) &&
    (List.range i).all fun j =>
      !((r.seg i).reads && (r.seg j).reads && rangesMeet (r.seg j) (r.seg i))) &&
  decide (r.writeBytes ≤ 16) && decide (r.readBytes ≤ 8) &&
  !(r.chk && (r.seg (r.nseg.toNat - 1)).writes && (r.seg (r.nseg.toNat - 1)).length = 0)

/-- The code fields of a definition (section 12.4). -/
def parseKind (b : Byte) : Option TrigKind :=
  if b = 0 then some .periodic else if b = 1 then some .alert else none
def parseMode (b : Byte) : Option ReportMode :=
  if b = 0 then some .always else if b = 1 then some .onChange else if b = 2 then some .onDelta
  else if b = 3 then some .onError else none
def parseAlertMode (b : Byte) : Option AlertMode :=
  if b = 0 then some .edge else if b = 1 then some .level else none

/-- The entry that a 128-byte definition makes: the DEFINE column of R120 (state DISABLED; the
fields of the other kind at their Reset values), or none where a check of R139 that gives
INVALID_FIELD fails. The target CQ is judged apart, after these. -/
def parseDefinition (d : List Byte) : Option Trigger :=
  let r := parseRequest d
  match parseKind (byteAt d 80), parseMode (byteAt d 82) with
  | some kind, some mode =>
    if !templateOk r || rd16 d 84 = 0 || (mode == .onDelta && decide (r.readBytes < 2)) then none
    else
      let base : Trigger :=
        { Trigger.reset with
          state := .disabled, kind := kind, template := some r,
          writeData := (List.range 16).map fun i => byteAt d (64 + i),
          mode := mode, mask := (List.range 8).map fun i => byteAt d (88 + i),
          deadband := rd16 d 84, reportSkips := bitAt (byteAt d 83) 0, failLimit := byteAt d 86 }
      match kind with
      | .periodic =>
        if rd16 d 96 = 0 || rd16 d 98 = 0 then none
        else some
          { base with phase := rd16 d 96, period := rd16 d 98, oneShot := bitAt (byteAt d 83) 1 }
      | .alert =>
        match asId 4 (byteAt d 100), parseAlertMode (byteAt d 101) with
        | some p, some m =>
          some { base with alertPort := p, alertMode := m, holdoff := rd16 d 102 }
        | _, _ => none
  | _, _ => none

/-- The target CQ field of a definition (R139, R199: above 3 names no queue). -/
def definitionCq (d : List Byte) : Option CqId := asId 4 (byteAt d 81)

/-! ### Receive ring entries and the setup block header (sections 12.5, 12.6) -/

/-- A receive ring entry's buffer, for the completion queue the served port named (R163, R164). -/
def parseRxEntry (e : List Byte) (cq : CqId) : RxBuffer :=
  { addr := rd64 e 0, cap := rd16 e 8, tag := rd16 e 10, cq := cq }

/-- A capacity of 16 to 4096 (R163). -/
def capOk (cap : Half) : Bool := decide (16 ≤ cap.toNat) && decide (cap.toNat ≤ 4096)

/-- R193: the header is valid when both sizes are powers of two in 4 to 256 and both bases are
64-byte aligned. -/
def headerOk (h : List Byte) : Bool :=
  sizeOk (rd16 h 16).toNat 4 256 && sizeOk (rd16 h 18).toNat 4 256 &&
    aligned64 (rd64 h 0) && aligned64 (rd64 h 8)

end Sys2Proof.Machine
end

