-- ==== Sys2Proof/Machine/Records.lean ====
section
/-! DEFINITION. The records, status words and buffers the 3240 writes (chapter 12), each as the list
of its bytes from the first offset. Reserved bytes are 0 (R200). -/

namespace Sys2Proof.Machine

/-- A status word: count, state, fault reason, time (section 12.6). -/
def statusWord (count : Half) (state reason : Byte) (time : Word) : List Byte :=
  le16 count ++ [state, reason] ++ le32 time

/-- The status word of a request queue (R28), a completion queue (R113) and the receive ring
(R160). -/
def rqStatusWord (c : RqCtx) (time : Word) : List Byte :=
  statusWord c.taken c.state.code c.reason.code time
def cqStatusWord (c : CqCtx) (time : Word) : List Byte :=
  statusWord c.produced c.state.code c.reason.code time
def rxStatusWord (r : RxRing) (time : Word) : List Byte :=
  statusWord r.taken r.state.code r.reason.code time

/-- The MQ and MCQ status words: state 1 and fault reason 0 always (R166). -/
def mgmtStatusWord (count : Half) (time : Word) : List Byte := statusWord count 1 0 time

/-- The controller status word: count 0, state and halt fault codes (R192). -/
def controllerStatusWord (l : Link) (time : Word) : List Byte :=
  statusWord 0 l.ctrl.code l.haltFault.code time

/-- A transaction record (R22, section 12.3). The start time of a transaction with no attempt is its
end time (R21). -/
def txnRecord (t : Txn) : List Byte :=
  [t.origin.code, byteN t.port.val, t.result.code, t.detail] ++ le16 t.req.tag ++
    [byteN t.segIndex, byteN t.attempts] ++ le16n t.writeCount ++ le16n t.readCount ++
    le32 (t.started.getD t.endTime) ++ le32 t.endTime ++ zeros 12

/-- A trigger report record (R137, section 12.3). -/
def reportRecord (e : TrigId) (t : Txn) (d : InstanceData) : List Byte :=
  [0x10, byteN t.port.val, t.result.code, t.detail] ++ le16 t.req.tag ++
    [byteN t.segIndex, byteN t.attempts] ++ le16n t.writeCount ++ le16n t.readCount ++
    [byteN e.val, flagsByte [d.first]] ++ le16 d.sequence ++ le32 t.endTime ++ le32 d.trigTime ++
    d.readArea

/-- A SKIPPED report record (R132): counts, segment index and attempts 0, read area 00h. -/
def skippedRecord (e : TrigId) (r : Request) (detail : Byte) (sequence : Half)
    (trigTime endTime : Word) : List Byte :=
  [0x10, byteN (portOf r.port).val, Result.skipped.code, detail] ++ le16 r.tag ++ [0, 0] ++
    zeros 4 ++ [byteN e.val, 0] ++ le16 sequence ++ le32 endTime ++ le32 trigTime ++ zeros 8

/-- The slot field of a RECEIVE record: S0 to S2, or 3 for the general call (section 12.3). -/
def Addressed.code : Addressed → Byte
  | .own o => byteN o.val
  | .generalCall => 3

/-- A RECEIVE record (section 12.3): status, flags, buffer tag, slot, address, length, capacity and
the two times. -/
def receiveRecord (p : PortId) (status flags : Byte) (tag : Half) (slot address : Byte)
    (length : Nat) (cap : Half) (addrTime endTime : Word) : List Byte :=
  [0x20, byteN p.val, status, flags] ++ le16 tag ++ [slot, address] ++ le16n length ++ le16 cap ++
    le32 addrTime ++ le32 endTime ++ zeros 12

/-- The record of a message (R158): status OK, or HOST_FAULT when its drain failed. -/
def messageRecord (p : PortId) (m : Message) (drained : Bool) : List Byte :=
  receiveRecord p (if drained then Result.ok.code else Result.hostFault.code)
    (flagsByte [m.truncated, m.endedByRestart, m.abandoned, false]) m.buffer.tag m.who.code
    (m.addr.setWidth 8) m.bytes.length m.buffer.cap m.addrTime m.endTime

/-- The record of a buffer given back unused (R164): flag UNUSED, status OK, length 0. -/
def unusedRecord (p : PortId) (b : RxBuffer) (time : Word) : List Byte :=
  receiveRecord p Result.ok.code (flagsByte [false, false, false, true]) b.tag 0 0 0 b.cap time time

/-- The record of a ring entry of bad capacity (R163): status MALFORMED, no flags, length 0. -/
def badCapacityRecord (p : PortId) (b : RxBuffer) (time : Word) : List Byte :=
  receiveRecord p Result.malformed.code 0 b.tag 0 0 0 b.cap time time

/-- A command completion record (R172, section 12.3). -/
def completionRecord (entry : List Byte) (status : Status) (a b time : Word) : List Byte :=
  [0xF0, opcode entry, status.code, 0] ++ le16 (commandTag entry) ++ [0, 0] ++ le32 a ++ le32 b ++
    le32 time ++ zeros 12

/-- An event record (R184, section 12.3). -/
def eventRecordOf (l : SetLatch) : List Byte :=
  [0xF1, latchKind l.latch, latchObject l.latch, latchSlot l.latch, l.reason, 0, 0, 0] ++ zeros 8 ++
    le32 l.time ++ zeros 12

/-- The identification record (R174, section 12.4). -/
def identificationRecord (m : Mgmt) : List Byte :=
  le16 Config.vendorCode ++ le16 Config.partCode ++ [Config.revision] ++ [4, 8, 4] ++ [32, 56, 8] ++
    [32, 32, 5] ++ [3, 32] ++ le16 256 ++ le16 4096 ++ le16 4096 ++ le16 4096 ++ le16 m.mqSize ++
    le16 m.mcqSize ++ zeros 228

/-- The trigger query record (R120, section 12.4). -/
def queryRecord (t : Trigger) : List Byte :=
  [t.state.code, t.kind.code, byteN t.cq.val, t.mode.code,
    flagsByte [t.reportSkips, t.oneShot, t.first, t.outstanding, t.latched.isSome],
    t.failLimit, t.consecutive, t.lastStatus.code] ++ t.mask ++ le16 t.deadband ++
    le16 t.instances ++ le16 t.reports ++ le16 t.skips ++ le16 t.failures ++ le16 t.sequence ++
    le16 t.phase ++ le16 t.period ++ le16 t.downCounter ++
    [byteN t.alertPort.val, t.alertMode.code] ++ le16 t.holdoff ++ le16 t.holdoffCtr ++
    le32 (t.latched.getD 0) ++ t.reference ++ zeros 12

/-- The statistics buffer: the fourteen counters in R103's order (R182). -/
def statsRecord (s : Stats) : List Byte :=
  le32 s.completed ++ le32 s.attempts ++ le32 s.arbLosses ++ le32 s.addrNacks ++ le32 s.dataNacks ++
    le32 s.clockLow ++ le32 s.stuckData ++ le32 s.recoveries ++ le32 s.faults ++ le32 s.messages ++
    le32 s.refusedNoBuffer ++ le32 s.refusedBusy ++ le32 s.imageReads ++ le32 s.repliesTaken

end Sys2Proof.Machine
end

