-- ==== Sys2Proof/Machine/Ops.lean ====
section
/-! DEFINITION. The named operations every block uses: reading and changing one object of the state,
time, issuing and ending host accesses (R185), event latches (R183), the interrupt logic (R118,
R119), status words (R192) and the completion of management commands (R172). -/

namespace Sys2Proof.Machine

/-! ### One object of many -/

/-- A vector with entry `i` changed by `f`. -/
def upd {α : Type} {n : Nat} (v : Vector α n) (i : Fin n) (f : α → α) : Vector α n :=
  v.set i.val (f (v.get i)) i.isLt

def State.port (s : State) (p : PortId) : Port := s.ports.get p
def State.rq (s : State) (q : RqId) : RqCtx := s.rqs.get q
def State.cq (s : State) (n : CqId) : CqCtx := s.cqs.get n
def State.trigger (s : State) (t : TrigId) : Trigger := s.trig.entries.get t

def State.modPort (s : State) (p : PortId) (f : Port → Port) : State :=
  { s with ports := upd s.ports p f }
def State.modRq (s : State) (q : RqId) (f : RqCtx → RqCtx) : State := { s with rqs := upd s.rqs q f }
def State.modCq (s : State) (n : CqId) (f : CqCtx → CqCtx) : State := { s with cqs := upd s.cqs n f }
def State.modTrigger (s : State) (t : TrigId) (f : Trigger → Trigger) : State :=
  { s with trig := { s.trig with entries := upd s.trig.entries t f } }
def State.setSlot (s : State) (k : SlotId) (x : Slot) : State :=
  { s with slots := upd s.slots k fun _ => x }

/-- The transaction in a slot. -/
def State.txn (s : State) (k : SlotId) : Option Txn :=
  match s.slots.get k with
  | .txn t => some t
  | _ => none

/-- Change the transaction in a slot; a slot that holds none stays as it is. -/
def State.modTxn (s : State) (k : SlotId) (f : Txn → Txn) : State :=
  match s.slots.get k with
  | .txn t => s.setSlot k (.txn (f t))
  | _ => s

/-- Change a port's target unit, engine or statistics. -/
def State.modTarget (s : State) (p : PortId) (f : Target → Target) : State :=
  s.modPort p fun P => { P with tgt := f P.tgt }
def State.modStats (s : State) (p : PortId) (f : Stats → Stats) : State :=
  s.modPort p fun P => { P with stats := f P.stats }

def allPorts : List PortId := List.finRange 4
def allRqs : List RqId := List.finRange 8
def allCqs : List CqId := List.finRange 4
def allTriggers : List TrigId := List.finRange 32
def allSlots : List SlotId := List.finRange 64

/-- The objects of a ring of `n`, searched from the one after `last`, `last` itself at the end:
the round-robin order of R31, R39 and R162. -/
def after {n : Nat} (last : Fin n) : List (Fin n) :=
  let l := List.finRange n
  l.drop (last.val + 1) ++ l.take (last.val + 1)

/-- A counter that stops at its greatest value (R120). -/
def satInc {w : Nat} (x : BitVec w) : BitVec w := if x = BitVec.allOnes w then x else x + 1

/-! ### Time and the controller's state -/

/-- Microseconds of the timebase since a moment, modulo its wrap (R191). -/
def State.since (s : State) (t : Word) : Nat := (s.timebase - t).toNat

/-- While link reset is asserted the part stays in reset, and nothing but its release or power-on
reset acts (R197). -/
def awake (s : State) (f : State → State) : State := if s.link.linkReset then s else f s

/-- The controller is RUNNING or HALTED: queues, ports and rings still hold their state. -/
def State.live (s : State) : Bool := s.link.ctrl == .running || s.link.ctrl == .halted

/-- Act only while the controller is RUNNING; only while it is RUNNING or HALTED. -/
def whenRunning (s : State) (f : State → State) : State :=
  awake s fun s => if s.link.ctrl = .running then f s else s
def whenLive (s : State) (f : State → State) : State :=
  awake s fun s => if s.live then f s else s

/-! ### Interrupts (R118, R119) -/

/-- The interrupt request: some ISR bit set whose IMR bit is 0 (R119). -/
def Ints.request (i : Ints) : Bool := (i.isr &&& ~~~ i.imr) != 0

/-- Replace ISR and IMR and recompute the request; when it rises, one message is sent, or none while
bus mastering is disabled (R119). -/
def setInts (isr imr : Byte) (s : State) : State :=
  let now : Ints := { isr := isr, imr := imr, sent := s.ints.sent }
  { s with
    ints := { now with
      sent := if !s.ints.request && now.request && s.link.busMaster then s.ints.sent + 1
        else s.ints.sent } }

/-- Set ISR bit `i` (R118). -/
def raiseIsr (i : Nat) (s : State) : State :=
  setInts (s.ints.isr ||| BitVec.twoPow 8 i) s.ints.imr s

/-! ### Event latches (R183) -/

/-- A cause sets its latch, which captures the reason and the timebase; a latch already set is left
as it stands (R183). -/
def setLatch (l : Latch) (reason : Byte) (s : State) : State :=
  if s.mgmt.latches.any fun x => x.latch == l then s
  else
    { s with mgmt := { s.mgmt with
      latches := s.mgmt.latches ++ [{ latch := l, reason := reason, time := s.timebase }] } }

/-! ### Host accesses (R185) -/

/-- Issue a host access; with bus mastering disabled it can only fail (R185). -/
def issue (kind : AccessKind) (xfer : Xfer) (forCommand : Bool) (s : State) : State :=
  { s with
    accesses := s.accesses ++
      [{ kind := kind, xfer := xfer, issuedAt := s.timebase, forCommand := forCommand,
         doomed := !s.link.busMaster, further := false }] }

/-- Issue the status word write for a queue's or ring's entry to ERROR. When a failed write caused the
entry, nothing follows if this one fails too (R29, R115, R160), whatever has become of the queue by
then. DEDUCED (log entry 56). -/
def issueErrorStatus (kind : AccessKind) (xfer : Xfer) (byFailure : Bool) (s : State) : State :=
  { s with
    accesses := s.accesses ++
      [{ kind := kind, xfer := xfer, issuedAt := s.timebase, forCommand := false,
         doomed := !s.link.busMaster, further := byFailure }] }

/-- Whether an access that ends successfully brings `got` bytes: as many as a read asked for; a write
brings none, and what comes with its end is not looked at. -/
def Xfer.brings (x : Xfer) (got : Nat) : Bool :=
  match x with
  | .read ranges => decide ((ranges.map Prod.snd).sum = got)
  | .write _ => true

/-- Take out of a list of accesses the one that `k` others of those `f` names precede. -/
def popAccess (f : Access → Bool) : Nat → List Access → Option (Access × List Access)
  | _, [] => none
  | k, a :: as =>
    if f a then
      match k with
      | 0 => some (a, as)
      | k + 1 => (popAccess f k as).map fun r => (r.1, a :: r.2)
    else (popAccess f k as).map fun r => (r.1, a :: r.2)

/-- Whether an access is one of an MCQ write sequence, which a controller stop lets come to its end
(R171, R173, R195). -/
def AccessKind.ofSequence : AccessKind → Bool
  | .mcqRecord => true
  | .mcqStatus atStart => !atStart
  | _ => false

/-- Whether the end of an access is told to the block that issued it: in STOPPING only that of an MCQ
write sequence (R173, R195). -/
def State.heeds (s : State) (a : Access) : Bool :=
  s.link.ctrl != .stopping || a.kind.ofSequence

/-- An access ends (R185). It is taken out of flight. In STOPPING its outcome is discarded, but for an
MCQ write sequence (R195).
Otherwise `g` tells the block that issued it how it ended: an access issued or outstanding with bus
mastering disabled has failed. A read that ends successfully returns as many bytes as it asked for;
an event with another number of bytes is not the end of that read. -/
def endAccess (f : Access → Bool) (k : Nat) (ok : Bool) (got : Nat)
    (g : Access → Bool → State → State) (s : State) : State :=
  match popAccess f k s.accesses with
  | none => s
  | some (a, rest) =>
    let ok := ok && !a.doomed
    if ok && !a.xfer.brings got then s
    else
      let s := { s with accesses := rest }
      if s.heeds a then g a ok s else s

/-! ### Status words (R192) -/

/-- The host address of status word slot `n` (section 12.6). -/
def State.statusSlot (s : State) (n : Nat) : Addr := s.link.setupBase + BitVec.ofNat 64 (64 + 8 * n)

/-- The status words of RQ `q`, of CQ `n` and of the receive ring, at their slots 2 + q, 10 + n and 14
(R28, R113, R160). -/
def State.rqStatusXfer (s : State) (q : RqId) : Xfer :=
  .write [(s.statusSlot (2 + q.val), rqStatusWord (s.rq q) s.timebase)]
def State.cqStatusXfer (s : State) (n : CqId) : Xfer :=
  .write [(s.statusSlot (10 + n.val), cqStatusWord (s.cq n) s.timebase)]
def State.rxStatusXfer (s : State) : Xfer :=
  .write [(s.statusSlot 14, rxStatusWord s.rx s.timebase)]

/-- Write RQ `q`'s status word (R28). -/
def writeRqStatus (q : RqId) (forCommand : Bool) (s : State) : State :=
  issue (.rqStatus q) (s.rqStatusXfer q) forCommand s

/-- Write CQ `n`'s status word (R113). -/
def writeCqStatus (n : CqId) (why : CqStatusFor) (forCommand : Bool) (s : State) : State :=
  issue (.cqStatus n why) (s.cqStatusXfer n) forCommand s

/-- Write the receive ring's status word (R160). -/
def writeRxStatus (forCommand : Bool) (s : State) : State :=
  issue .rxStatus s.rxStatusXfer forCommand s

/-- Write the controller status word, slot 15 (R192). -/
def writeControllerStatus (s : State) : State :=
  issue .controllerStatus (.write [(s.statusSlot 15, controllerStatusWord s.link s.timebase)]) false s

/-- Write the MQ and MCQ status words, slots 0 and 1 (R166, R169, R171). -/
def writeMqStatus (atStart : Bool) (s : State) : State :=
  issue (.mqStatus atStart)
    (.write [(s.statusSlot 0, mgmtStatusWord s.mgmt.mqTaken s.timebase)]) false s
def writeMcqStatus (atStart : Bool) (s : State) : State :=
  issue (.mcqStatus atStart)
    (.write [(s.statusSlot 1, mgmtStatusWord s.mgmt.mcqProduced s.timebase)]) false s

/-! ### Management commands (R170, R172) -/

/-- Change the management unit's context. -/
def State.modMgmt (s : State) (f : Mgmt → Mgmt) : State := { s with mgmt := f s.mgmt }

/-- Whether the command in hand has come to `phase`. -/
def State.commandAt (s : State) (phase : CmdPhase) : Bool :=
  match s.mgmt.command with
  | some c => c.phase == phase
  | none => false

/-- The command in hand goes on to `phase`. -/
def setCommandPhase (phase : CmdPhase) (s : State) : State :=
  s.modMgmt fun m => { m with command := m.command.map fun c => { c with phase := phase } }

/-- The command in hand completes with a status and values A and B: its record becomes the
completion due, and the command held becomes none (R170, R172). -/
def completeCommand (status : Status) (a b : Word) (s : State) : State :=
  match s.mgmt.command with
  | some c =>
    s.modMgmt fun m =>
      { m with command := none, due := some (completionRecord c.entry status a b s.timebase) }
  | none => s

/-- Complete the command in hand if it waits at `phase`. -/
def completeIf (phase : CmdPhase) (status : Status) (a : Word) (s : State) : State :=
  if s.commandAt phase then completeCommand status a 0 s else s

end Sys2Proof.Machine
end

