-- ==== Sys2Proof/Machine/Pool.lean ====
section
/-! DEFINITION. Transaction slots, insertion into pending lists, the holds, and the end of a queue's
deletion (R34 to R45). -/

namespace Sys2Proof.Machine

/-- Whether a slot is free (R34). -/
def Slot.isFree : Slot → Bool
  | .free => true
  | _ => false

/-- Request slots and trigger slots (R34). -/
def requestSlots : List SlotId := allSlots.filter fun k => decide (k.val < Config.requestSlots)
def triggerSlots : List SlotId := allSlots.filter fun k => decide (Config.requestSlots ≤ k.val)

/-- The free slot that a take gets: the lowest. DESIGN CHOICE (log entry 9). -/
def State.freeRequestSlot (s : State) : Option SlotId :=
  requestSlots.find? fun k => (s.slots.get k).isFree
def State.freeTriggerSlot (s : State) : Option SlotId :=
  triggerSlots.find? fun k => (s.slots.get k).isFree

/-- Whether the pending list of a port holds 32 transactions (R44). -/
def State.listFull (s : State) (p : PortId) : Bool :=
  decide (Config.listCapacity ≤ (s.port p).list.length)

/-- Trigger instances share one origin; requests share theirs by queue (R45). -/
def sameOrigin : Origin → Origin → Bool
  | .trigger _, .trigger _ => true
  | .rq a, .rq b => a == b
  | _, _ => false

/-- Whether list member `k` holds back an urgent insertion of `t`: it is urgent or of the same origin
(R45). -/
def State.holdsBack (s : State) (t : Txn) (k : SlotId) : Bool :=
  match s.txn k with
  | some u => u.req.urgent || sameOrigin u.origin t.origin
  | none => false

/-- The place in a list behind the last member that `f` names, if any. -/
def behindLast {α : Type} (f : α → Bool) : List α → Option Nat
  | [] => none
  | a :: as =>
    match behindLast f as with
    | some i => some (i + 1)
    | none => if f a then some 1 else none

/-- The position of an insertion (R45). -/
def State.insertIndex (s : State) (p : PortId) (t : Txn) : Nat :=
  if t.req.urgent then
    match behindLast (s.holdsBack t) (s.port p).list with
    | some i => i
    | none => if (s.port p).inService.isSome then 1 else 0
  else (s.port p).list.length

/-- Put `k` into a list at a position; nothing else moves (R45). -/
def insertAt (l : List SlotId) (i : Nat) (k : SlotId) : List SlotId := l.take i ++ k :: l.drop i

/-- Insert the transaction `t` of slot `k` into its port's list, in state WAITING (R37, R45). -/
def insertTxn (k : SlotId) (t : Txn) (s : State) : State :=
  (s.modPort t.port fun P => { P with list := insertAt P.list (s.insertIndex t.port t) k }).setSlot k
    (.txn { t with state := .waiting })

/-- Whether a transaction's fence, if it has one, is satisfied: no earlier transaction of its queue
is open (R37). -/
def State.fenceOk (s : State) (q : RqId) (t : Txn) : Bool :=
  !t.req.fence || decide ((s.rq q).openCount ≤ 1)

/-- Insert the held transaction of `q`; the hold becomes empty, and the port remembers the queue
(R38, R39). -/
def placeHeld (q : RqId) (k : SlotId) (t : Txn) (s : State) : State :=
  let s := (insertTxn k t s).modRq q fun c => { c with hold := none }
  { s with fetch := { s.fetch with placed := upd s.fetch.placed t.port fun _ => q } }

/-- The transaction held by `q`, with its slot. -/
def State.held (s : State) (q : RqId) : Option (SlotId × Txn) :=
  match (s.rq q).hold with
  | some k => (s.txn k).map fun t => (k, t)
  | none => none

/-- Re-examine the hold of `q`: the fence first, then the room (R38). -/
def examineHold (q : RqId) (s : State) : State :=
  match s.held q with
  | some (k, t) => if s.fenceOk q t && !s.listFull t.port then placeHeld q k t s else s
  | none => s

/-- Whether the hold of `q` waits for port `p` with its fence satisfied (R39). -/
def State.waitsFor (s : State) (p : PortId) (q : RqId) : Bool :=
  match s.held q with
  | some (_, t) => t.port == p && s.fenceOk q t
  | none => false

/-- A transaction has left the list of `p`: its place is offered to the holds waiting for the port,
from the queue after the one last placed there (R39). -/
def offerPlace (p : PortId) (s : State) : State :=
  match (after (s.fetch.placed.get p)).find? (s.waitsFor p) with
  | some q => examineHold q s
  | none => s

/-- A request queue in RUNNING enters ERROR: its status word is written and its latch is set (R27,
R29, R33, R41). -/
def rqEnterError (q : RqId) (reason : RqReason) (s : State) : State :=
  if (s.rq q).state = .running then
    let s := s.modRq q fun c => { c with state := .error, reason := reason }
    setLatch (.rqError q) reason.code
      (issueErrorStatus (.rqStatus q) (s.rqStatusXfer q) (reason == .statusWrite) s)
  else s

/-- Whether an entry read is in progress for `q` (R26, R43). -/
def State.reading (s : State) (q : RqId) : Bool :=
  match s.fetch.turn with
  | some t => t.q == q
  | none => false

/-- A DELETING queue with open count 0 and no read in progress becomes ABSENT: the final status word
is written, the waiting command goes on to wait for that write, and the context takes its reset
values (R43). -/
def deletionEnd (q : RqId) (s : State) : State :=
  if (s.rq q).state = .deleting && decide ((s.rq q).openCount = 0) && !s.reading q then
    let waits := (s.rq q).deletePending && s.commandAt (.deleteRq q)
    let s := writeRqStatus q waits (s.modRq q fun c => { c with state := .absent })
    let s := if waits then setCommandPhase .statusWord s else s
    s.modRq q fun _ => RqCtx.reset
  else s

/-- A transaction's completion is final: its slot is released and the open count of its queue
falls, its queue's hold is re-examined, and a deletion may end (R36, R38, R43). -/
def finalize (k : SlotId) (s : State) : State :=
  match s.txn k with
  | some t =>
    match t.origin with
    | .rq q =>
      deletionEnd q
        (examineHold q ((s.setSlot k .free).modRq q fun c => { c with openCount := c.openCount - 1 }))
    | .trigger _ => s.setSlot k .free
  | none => s

/-- Set a withdrawal mark on a transaction that carries none (R55). -/
def markTxn (k : SlotId) (r : Result) (s : State) : State :=
  s.modTxn k fun t => if t.mark.isNone then { t with mark := some r } else t

end Sys2Proof.Machine
end

