-- ==== Sys2Proof/Machine/TargetOps.lean ====
section
/-! DEFINITION. Shared operations of the target units (chapter 8): timers of the lines, the judging of
addresses, mailbox decisions, and what a message needs. -/

namespace Sys2Proof.Machine

/-- Activity on the lines of a port sets its idle timer and its timeout timers back to 0 (R88,
R95). -/
def touch (p : PortId) (s : State) : State :=
  s.modPort p fun P =>
    { P with idleFrom := s.timebase, clockLowFrom := s.timebase, stuckDataFrom := s.timebase }

/-- Whether a timeout timer that has run since a moment has reached the bus timeout (R95). -/
def State.timeoutPassed (s : State) (p : PortId) (from_ : Word) : Bool :=
  decide ((s.port p).cfg.busTimeout.toNat * 1000 ≤ s.since from_)

/-- The timeouts whose timers have reached the bus timeout; with bus timeout 0 neither runs (R95). -/
def State.timeoutsReached (s : State) (p : PortId) : List FaultReason :=
  if (s.port p).cfg.busTimeout = 0 then []
  else
    (if s.timeoutPassed p (s.port p).clockLowFrom then [.clockLow] else []) ++
      if s.timeoutPassed p (s.port p).stuckDataFrom then [.dataLow] else []

/-- The end of an attempt is about to set the timeout timers back: an expiry that has come together with
it may still be taken after it, until time passes (R96). DEDUCED (log entry 57). -/
def tieTimeouts (p : PortId) (s : State) : State :=
  s.modPort p fun P => { P with tied := P.tied ++ s.timeoutsReached p }

/-- Both lines of the port are released (R90). -/
def releaseLines (p : PortId) (s : State) : State :=
  s.modPort p fun P => { P with sclDriven := false, sdaDriven := false }

/-- The target unit drives, or leaves, the acknowledge bit of a byte (R147, R149). -/
def giveAck (p : PortId) (ack : Bool) (s : State) : State :=
  s.modPort p fun P => { P with lastAck := some ack }

/-- The conditions under which the target unit judges an address byte (R89, R146), the port being
one that follows an outside transfer. -/
def State.judges (s : State) (p : PortId) : Bool :=
  (s.port p).cfg.targetEnable && (s.port p).inStep && s.link.ctrl == .running &&
    !(s.port p).tgt.disableTold

/-- What an address byte matches (R146). -/
def matchAddress (c : Settings) (byte : Byte) : Option Addressed :=
  let a : BitVec 7 := byte.extractLsb' 1 7
  match (List.finRange 3).find? fun i => (c.slots.get i).on && (c.slots.get i).addr == a with
  | some i => some (.own i)
  | none => if a = 0 && !bitAt byte 0 && c.generalCall then some .generalCall else none

/-- Whether the buffer at hand is PRESENT, with the buffer. -/
def AtHand.buffer : AtHand → Option RxBuffer
  | .present b => some b
  | _ => none

/-- Whether target staging is FREE; whether it is DRAINING (R155). -/
def TStaging.isFree : TStaging → Bool
  | .free => true
  | _ => false
def TStaging.isDraining : TStaging → Bool
  | .draining _ => true
  | _ => false

/-- Whether the buffer at hand is on its way (R155). -/
def State.bufferComing (s : State) (p : PortId) : Bool :=
  match (s.port p).tgt.atHand with
  | .fetching => true
  | .wanted => s.rx.state == .running && s.rx.posted != s.rx.taken
  | _ => false

/-- Every condition that is missing for a message is on its way (R155). -/
def State.messageComing (s : State) (p : PortId) : Bool :=
  ((s.port p).tgt.atHand.buffer.isSome || s.bufferComing p) &&
    ((s.port p).tgt.staging.isFree || (s.port p).tgt.staging.isDraining)

/-- The write address is acknowledged for a message into buffer `b` (R156). -/
def startMessage (p : PortId) (who : Addressed) (addr : BitVec 7) (b : RxBuffer) (s : State) : State :=
  touch p (s.modPort p fun P =>
    { P with
      state := .target, sclDriven := false, lastAck := some true,
      tgt := { P.tgt with
        transfer := .mailboxWrite, atHand := .wanted,
        staging := .filling
          { buffer := b, who := who, addr := addr, addrTime := s.timebase, endTime := s.timebase,
            bytes := [], truncated := false, endedByRestart := false, abandoned := false } } })

/-- The address is refused: SDA and SCL are left released, the port is OBSERVING, and the transfer is
REFUSED until it ends (R147). -/
def refuse (p : PortId) (s : State) : State :=
  touch p (s.modPort p fun P =>
    { P with
      state := .observing, sclDriven := false, lastAck := some false,
      tgt := { P.tgt with transfer := .refused } })

/-- A mailbox write address is refused and counted for one reason (R155). -/
def refuseMessage (p : PortId) (s : State) : State :=
  if (s.port p).tgt.atHand.buffer.isSome then
    refuse p (s.modStats p fun c => { c with refusedBusy := c.refusedBusy + 1 })
  else
    setLatch (.ringEmpty p) 0
      (refuse p (s.modStats p fun c => { c with refusedNoBuffer := c.refusedNoBuffer + 1 }))

/-- The buffer a message can start with: PRESENT, and staging FREE (R147, R155). -/
def State.messageBuffer (s : State) (p : PortId) : Option RxBuffer :=
  if (s.port p).tgt.staging.isFree then (s.port p).tgt.atHand.buffer else none

/-- Decide a write address matched to a MAILBOX slot or the general call (R155): acknowledge, wait
while holding SCL, or refuse. `since` is when SCL was first held, if it is. -/
def decideMessage (p : PortId) (who : Addressed) (addr : BitVec 7) (since : Word) (s : State) : State :=
  match s.messageBuffer p with
  | some b => startMessage p who addr b s
  | none =>
    if s.messageComing p then
      s.modPort p fun P =>
        { P with
          state := .target, sclDriven := true,
          tgt := { P.tgt with transfer := .deciding who addr since } }
    else refuseMessage p s

/-- A waiting decision is taken again, since what it waits for may have come or gone (R155). -/
def decideAgain (p : PortId) (s : State) : State :=
  match (s.port p).tgt.transfer with
  | .deciding who addr since => decideMessage p who addr since s
  | _ => s

/-- Every waiting decision is taken again, after a change of the receive ring. -/
def decideAll (s : State) : State := allPorts.foldl (fun s p => decideAgain p s) s

/-- The address is acknowledged, and the port takes part in the transfer (R147). -/
def takePart (p : PortId) (x : Transfer) (s : State) : State :=
  touch p (s.modPort p fun P =>
    { P with state := .target, lastAck := some true, tgt := { P.tgt with transfer := x } })

/-- A read address of a MAILBOX slot: acknowledged when its reply is LOADED (R147, R153). -/
def decideReply (p : PortId) (o : OwnId) (s : State) : State :=
  if ((s.port p).tgt.replies.get o).state = .loaded then
    takePart p (.replyRead o 0 false) (s.modTarget p fun T =>
      { T with replies := upd T.replies o fun r => { r with state := .reading } })
  else refuse p s

/-- The decision for a byte that has matched (R147). -/
def decideMatch (p : PortId) (who : Addressed) (byte : Byte) (s : State) : State :=
  match who with
  | .generalCall => decideMessage p .generalCall 0 s.timebase s
  | .own o =>
    match ((s.port p).cfg.slots.get o).role, bitAt byte 0 with
    | .image, false => takePart p (.imageWrite o true) s
    | .image, true =>
      takePart p (.imageRead o false) (s.modStats p fun c => { c with imageReads := c.imageReads + 1 })
    | .mailbox, true => decideReply p o s
    | .mailbox, false => decideMessage p (.own o) (byte.extractLsb' 1 7) s.timebase s
    | .off, _ => s

/-- The target unit judges a complete address byte; one that matches nothing is not judged further
(R146). -/
def judge (p : PortId) (byte : Byte) (s : State) : State :=
  match matchAddress (s.port p).cfg byte with
  | some who => decideMatch p who byte s
  | none => s

/-- Whether a port with these settings, not OFF, wants a buffer (R162). -/
def Settings.wantsBuffer (c : Settings) : Bool := c.targetEnable && c.takesMessages

/-- WRITE IMAGE's bytes replace part of an image (R152). -/
def applyImage (p : PortId) (o : OwnId) (offset : Nat) (bytes : List Byte) (s : State) : State :=
  s.modTarget p fun T => { T with images := upd T.images o fun i => overlay i offset bytes }

/-- SET REPLY's bytes replace the reply, and the slot is LOADED (R154). -/
def applyReply (p : PortId) (o : OwnId) (bytes : List Byte) (s : State) : State :=
  s.modTarget p fun T =>
    { T with replies := upd T.replies o fun _ => { state := .loaded, bytes := bytes } }

/-- A held update is applied at the end of the read transfer that held it, and the command that
waits completes (R152, R154). -/
def applyHeld (p : PortId) (s : State) : State :=
  match (s.port p).tgt.held with
  | some (.image o offset bytes) =>
    completeIf (.update p) .success 0
      (applyImage p o offset bytes (s.modTarget p fun T => { T with held := none }))
  | some (.reply o bytes) =>
    completeIf (.update p) .success 0
      (applyReply p o bytes (s.modTarget p fun T => { T with held := none }))
  | none => s

/-- The end of a reply read: EMPTY, counted and latched, when the last byte was sent; otherwise
LOADED again with the same bytes (R153). -/
def endReply (p : PortId) (o : OwnId) (pos : Nat) (s : State) : State :=
  if ((s.port p).tgt.replies.get o).bytes.length ≤ pos then
    setLatch (.replyTaken p o) 0
      ((s.modTarget p fun T => { T with replies := upd T.replies o fun _ => Reply.reset }).modStats p
        fun c => { c with repliesTaken := c.repliesTaken + 1 })
  else
    s.modTarget p fun T =>
      { T with replies := upd T.replies o fun r => { r with state := .loaded } }

end Sys2Proof.Machine
end

