-- ==== Sys2Proof/Machine/OfferOps.lean ====
section
/-! DEFINITION. Offers to the holding list (R110 to R112), the target units' records (R158, R164),
and a port's entry to OFF (R94). -/

namespace Sys2Proof.Machine

/-- A record is discarded: the slot it keeps is released and the transaction counts as completed
(R116). -/
def discard (e : HoldEntry) (s : State) : State :=
  match e.slot with
  | some k => finalize k s
  | none => s

/-- Offer a record to the holding list: it enters, is accepted and discarded, or is refused (none)
(R111). -/
def tryOffer (e : HoldEntry) (s : State) : Option State :=
  if (s.cq e.cq).state = .running then
    if s.comp.holding.length < Config.holdingCapacity then
      some { s with comp := { s.comp with holding := s.comp.holding ++ [e] } }
    else none
  else some (discard e s)

/-- The holding list entry of a RECEIVE record (R110). -/
def ReceiveRecord.entry (r : ReceiveRecord) : HoldEntry :=
  { record := r.record, cq := r.cq, notify := false, slot := none }

/-- The record at the head of a target unit's records has been accepted: it leaves, and if it is a
message's, the message is counted and staging becomes FREE (R158). -/
def targetAccepted (p : PortId) (message : Bool) (s : State) : State :=
  let s := s.modTarget p fun T => { T with records := T.records.tail }
  if message then
    decideAgain p
      ((s.modTarget p fun T => { T with staging := .free }).modStats p
        fun c => { c with messages := c.messages + 1 })
  else s

/-- A target unit offers its records one at a time, in the order made, until one is refused
(R158); at most `fuel` of them. -/
def offerTargetN (p : PortId) : Nat → State → State
  | 0, s => s
  | fuel + 1, s =>
    match (s.port p).tgt.records with
    | [] => s
    | r :: _ =>
      match tryOffer r.receive.entry s with
      | some s' => offerTargetN p fuel (targetAccepted p r.message s')
      | none => s

/-- Offer every record a target unit holds. -/
def offerTarget (p : PortId) (s : State) : State :=
  offerTargetN p (s.port p).tgt.records.length s

/-- A target unit has made a record: it joins those it holds, and is offered unless an earlier one
waits (R158, R164). -/
def pushRecord (p : PortId) (r : TargetRecord) (s : State) : State :=
  let first := (s.port p).tgt.records.isEmpty
  let s := s.modTarget p fun T => { T with records := T.records ++ [r] }
  if first then offerTarget p s else s

/-- The RECEIVE record of a buffer given back unused (R164). -/
def giveBack (p : PortId) (b : RxBuffer) (s : State) : State :=
  pushRecord p
    { receive := { record := unusedRecord p b s.timebase, cq := b.cq }, message := false } s

/-- The drain of the message in staging has ended: staging enters POSTING and the record is offered
(R158). -/
def drainEnded (p : PortId) (ok : Bool) (s : State) : State :=
  match (s.port p).tgt.staging with
  | .draining m =>
    let s := s.modTarget p fun T => { T with staging := .posting }
    decideAgain p (pushRecord p
      { receive := { record := messageRecord p m ok, cq := m.buffer.cq }, message := true } s)
  | _ => s

/-- The message in staging ends and goes on to DRAINING; with length 0 no write is made (R157,
R158). -/
def endMessage (p : PortId) (byRestart abandoned : Bool) (s : State) : State :=
  match (s.port p).tgt.staging with
  | .filling m =>
    let m := { m with endTime := s.timebase, endedByRestart := byRestart, abandoned := abandoned }
    let s := s.modTarget p fun T => { T with staging := .draining m }
    if m.bytes.isEmpty then drainEnded p true s
    else issue (.targetDrain p) (.write [(m.buffer.addr, m.bytes)]) false s
  | _ => s

/-- The end of the target transfer in progress, with what its role does then (R149 to R157). The
lines are released; the caller moves the port. -/
def endTransfer (p : PortId) (byRestart abandoned : Bool) (s : State) : State :=
  let x := (s.port p).tgt.transfer
  let s := releaseLines p (s.modTarget p fun T => { T with transfer := .none })
  match x with
  | .imageRead _ _ => applyHeld p s
  | .replyRead o pos _ => applyHeld p (endReply p o pos s)
  | .mailboxWrite => endMessage p byRestart abandoned s
  | _ => s

/-- The target unit's items at ENABLE PORT and at the entry to OFF (R145): the images, the messages
in staging and the records stay. -/
def Target.cleared (T : Target) (atHand : AtHand) : Target :=
  { T with
    transfer := .none, pointers := Vector.replicate 3 0, replies := Vector.replicate 3 Reply.reset,
    atHand := atHand, held := none, disableTold := false }

/-- The port's items at its entry to OFF (R63, R88, R89, R90, R94, R145). -/
def Port.switchedOff (P : Port) : Port :=
  { P with
    state := .off, sclDriven := false, sdaDriven := false, busFree := false, inStep := false,
    awaitAddr := false, enabling := false, eng := Engine.reset, reason := none, recovery := .none,
    tied := [], disablePending := false, tgt := P.tgt.cleared .nothing }

/-- The port enters OFF: its buffer at hand is given back, disable pending is cleared and DISABLE
PORT completes (R94, R59, R164). -/
def enterOff (p : PortId) (s : State) : State :=
  let b := (s.port p).tgt.atHand.buffer
  let s := s.modPort p Port.switchedOff
  let s :=
    match b with
    | some b => giveBack p b s
    | none => s
  completeIf (.port p .disable) .success 0 s

/-- The bus engine is told to disable the port: it enters OFF at the moment R94 gives, and at once
while the controller is HALTED (R102). -/
def tellDisable (p : PortId) (s : State) : State :=
  if s.link.ctrl = .halted then enterOff p s
  else
    match (s.port p).state with
    | .idle | .observing | .faulted => enterOff p s
    | .target | .recovering => s.modTarget p fun T => { T with disableTold := true }
    | .master | .off => s

/-- The in-service transaction leaves the list of `p`: it is counted, its place is offered, and a
pending disable is told to the bus engine (R54, R59, R62). R39 and R131 let an expiry take the place first;
here a held request offered the place takes it in the same event. DESIGN CHOICE (log entry 59). -/
def leaveList (p : PortId) (s : State) : State :=
  let s := s.modPort p fun P =>
    { P with
      list := P.list.tail, inService := none, pendingResult := none,
      stats := { P.stats with completed := P.stats.completed + 1 } }
  let s := offerPlace p s
  if (s.port p).disablePending then tellDisable p s else s

/-- The holding list entry of a transaction whose result is fixed: a transaction record, or a trigger
report (R22, R137). -/
def serviceEntry (k : SlotId) (t : Txn) : HoldEntry :=
  { record :=
      match t.origin, t.trig with
      | .trigger e, some d => reportRecord e t d
      | _, _ => txnRecord t,
    cq := t.cq, notify := t.req.notify, slot := some k }

/-- The record of the in-service transaction of `p`, in slot `k`, has been accepted: the transaction
leaves the list (R54). -/
def serviceAccepted (p : PortId) (k : SlotId) (s : State) : State :=
  leaveList p (s.modTxn k fun t => { t with state := .recorded })

/-- The transaction of `p` in POSTING, with its slot. -/
def State.posting (s : State) (p : PortId) : Option (SlotId × Txn) :=
  match (s.port p).inService with
  | some k =>
    match s.txn k with
    | some t => if t.state = .posting then some (k, t) else none
    | none => none
  | none => none

/-- The scheduler of `p` offers the record of its POSTING transaction (R54). -/
def offerService (p : PortId) (s : State) : State :=
  match s.posting p with
  | some (k, t) =>
    match tryOffer (serviceEntry k t) s with
    | some s' => serviceAccepted p k s'
    | none => s
  | none => s

/-- The in-service transaction enters POSTING and its record is offered (R54). -/
def post (p : PortId) (k : SlotId) (s : State) : State :=
  offerService p (s.modTxn k fun t => { t with state := .posting })

end Sys2Proof.Machine
end

