-- ==== Sys2Proof/Machine/TriggerOps.lean ====
section
/-! DEFINITION. Shared operations of the trigger unit (chapter 7): disarming, expiry, skips, instances,
and the completion of an instance. -/

namespace Sys2Proof.Machine

/-- Whether some entry is ARMED (R125). -/
def State.someArmed (s : State) : Bool := allTriggers.any fun t => (s.trigger t).state == .armed

/-- The fields an entry loses when it enters DISABLED from ARMED (R121). -/
def Trigger.disarmed (E : Trigger) : Trigger :=
  { E with
    state := .disabled, downCounter := 0, holdoffCtr := 0, latched := none, first := false,
    holdoffEnded := false }

/-- An entry enters DISABLED from ARMED; the prescaler stops with the last ARMED entry (R121,
R125). -/
def disarm (t : TrigId) (s : State) : State :=
  let s := s.modTrigger t Trigger.disarmed
  let s := { s with trig := { s.trig with tickDue := s.trig.tickDue.filter fun u => u != t } }
  if s.someArmed then s else { s with trig := { s.trig with prescaler := none } }

/-- Whether an ALERT entry is held off: an instance is outstanding or its quiet time has not ended
(R127). An end of holdoff that has come but has not been taken counts as not ended (log entry 6). -/
def State.heldOff (s : State) (t : TrigId) : Bool :=
  (s.trigger t).outstanding || (s.trigger t).holdoffCtr != 0 || (s.trigger t).holdoffEnded ||
    s.trig.tickDue.contains t

/-- An expiry is skipped (R132): the skip is counted and, with REPORT_SKIPS, its record is offered
once; a record that finds the list full is dropped. -/
def skip (t : TrigId) (detail : Byte) (sequence : Half) (trigTime : Word) (s : State) : State :=
  let s := s.modTrigger t fun E => { E with skips := satInc E.skips }
  match (s.trigger t).reportSkips, (s.trigger t).template with
  | true, some r =>
    match tryOffer
      { record := skippedRecord t r detail sequence trigTime s.timebase, cq := (s.trigger t).cq,
        notify := r.notify, slot := none } s with
    | some s' => s'.modTrigger t fun E => { E with reports := satInc E.reports }
    | none => s
  | _, _ => s

/-- A new instance of an entry, before its insertion (R131). -/
def newInstance (t : TrigId) (E : Trigger) (r : Request) (sequence : Half) (trigTime now : Word) : Txn :=
  { req := r, origin := .trigger t, port := portOf r.port, cq := E.cq, state := .waiting,
    mark := none, takenAt := now, arbUsed := 0, nackUsed := 0, attempts := 0, started := none,
    gapFrom := now, result := .ok, detail := 0, segIndex := 0, writeCount := 0, readCount := 0,
    endTime := now,
    trig := some
      { sequence := sequence, trigTime := trigTime, writeData := E.writeData, readArea := zeros 8,
        first := false } }

/-- An expiry of entry `t` with its trigger time, settled by the first case of R131 that applies;
`overrun` marks an ALERT expiry made while the entry is held off (R128). The sequence number is
given and incremented either way (R130). -/
def expire (t : TrigId) (trigTime : Word) (overrun : Bool) (s : State) : State :=
  let E := s.trigger t
  let s := s.modTrigger t fun E => { E with sequence := E.sequence + 1 }
  if E.outstanding || overrun then skip t detailOverrun E.sequence trigTime s
  else
    match s.freeTriggerSlot, E.template with
    | some k, some r =>
      if s.listFull (portOf r.port) then skip t detailNoRoom E.sequence trigTime s
      else
        insertTxn k (newInstance t E r E.sequence trigTime s.timebase)
          (s.modTrigger t fun E => { E with outstanding := true })
    | _, _ => skip t detailNoRoom E.sequence trigTime s

/-- Two bytes as a signed 16-bit value, the first the most significant (R136). -/
def signed16 (l : List Byte) : Int := (byteAt l 0 ++ byteAt l 1 : BitVec 16).toInt

/-- Whether some byte differs under its mask byte (R135). -/
def maskedDiffer (mask a b : List Byte) : Bool :=
  (List.range 8).any fun i => (byteAt a i &&& byteAt mask i) != (byteAt b i &&& byteAt mask i)

/-- The report decision (R135, R136). -/
def reportDecision (E : Trigger) (r : Result) (area : List Byte) : Bool :=
  match E.mode with
  | .always => true
  | .onError => r != .ok
  | .onChange =>
    E.first || r != E.lastStatus || (r == .ok && maskedDiffer E.mask area E.reference)
  | .onDelta =>
    E.first || r != E.lastStatus ||
      (r == .ok &&
        decide (E.deadband.toNat ≤ (signed16 area - signed16 E.reference).natAbs))

/-- The entry's fields after a completion with result `r` (R134, R135). -/
def Trigger.completed (E : Trigger) (r : Result) (area : List Byte) : Trigger :=
  let report := reportDecision E r area
  { E with
    outstanding := false, first := false, instances := satInc E.instances,
    consecutive := if r = .ok then 0 else satInc E.consecutive,
    failures := if r = .ok then E.failures else satInc E.failures,
    reports := if report then satInc E.reports else E.reports,
    reference := if report then area else E.reference,
    lastStatus := if report then r else E.lastStatus }

/-- Whether a completion brings an ARMED entry's consecutive failures to its fail limit (R138). -/
def Trigger.limitReached (E : Trigger) (r : Result) : Bool :=
  E.state == .armed && E.failLimit != 0 && r != .ok && E.consecutive == E.failLimit

/-- Apply the fail limit (R138). -/
def applyFailLimit (t : TrigId) (r : Result) (s : State) : State :=
  if (s.trigger t).limitReached r then setLatch (.triggerDisabled t) r.code (disarm t s) else s

/-- An ALERT entry still ARMED loads its holdoff counter; with holdoff 0 its quiet time ends here
(R127). -/
def loadHoldoff (t : TrigId) (s : State) : State :=
  if (s.trigger t).kind = .alert && (s.trigger t).state == .armed then
    s.modTrigger t fun E => { E with holdoffCtr := E.holdoff, holdoffEnded := E.holdoff == 0 }
  else s

/-- DISABLE TRIGGERS completes when no entry it names has an instance outstanding (R141). -/
def checkInstances (s : State) : State :=
  match s.mgmt.command with
  | some c =>
    match c.phase with
    | .instances map =>
      if allTriggers.any fun t => map.getLsbD t.val && (s.trigger t).outstanding then s
      else completeCommand .success 0 0 s
    | _ => s
  | none => s

/-- An instance's result is handed to the trigger unit (R134): the entry is updated, the fail limit
applied, the holdoff loaded, and a waiting DISABLE TRIGGERS may complete. -/
def completeInstance (t : TrigId) (r : Result) (area : List Byte) (s : State) : State :=
  checkInstances
    (loadHoldoff t (applyFailLimit t r (s.modTrigger t fun E => E.completed r area)))

end Sys2Proof.Machine
end

