-- ==== Sys2Proof/Machine/SchedOps.lean ====
section
/-! DEFINITION. Shared operations of the port schedulers (chapter 3): the end of service, results fixed
outside an attempt, the end of an attempt, and the effect of withdrawing events. -/

namespace Sys2Proof.Machine

/-- The result of the in-service transaction is fixed and its draining, if any, has ended (R54): a
suppressed OK result leaves at once; a trigger instance goes to the trigger unit, which decides
whether a report is posted; every other result is posted. R54 gives no order for the release of the
slot and the leaving of the list, which fall on one moment; the slot is released first. DESIGN CHOICE
(log entry 46). A report of an instance that completes after its entry has left ARMED carries FIRST clear,
as R121 has cleared the entry's flag. DESIGN CHOICE (log entry 55). -/
def serviceEnd (p : PortId) (k : SlotId) (s : State) : State :=
  match s.txn k with
  | none => s
  | some t =>
    match t.origin, t.trig with
    | .trigger e, some d =>
      let area := readAreaOf t.req (s.port p).inbound
      let first := (s.trigger e).first
      let report := reportDecision (s.trigger e) t.result area
      let s := completeInstance e t.result area s
      let s := s.modTxn k fun t => { t with trig := some { d with readArea := area, first := first } }
      if report then post p k s else leaveList p (finalize k s)
    | _, _ =>
      if t.result = .ok && t.req.suppress then leaveList p (finalize k s) else post p k s

/-- A result of the in-service transaction is fixed outside an attempt: counts and segment index 0,
the end time now, no read bytes (R21). -/
def fixOutside (p : PortId) (k : SlotId) (r : Result) (detail : Byte) (s : State) : State :=
  let s := s.modPort p fun P => { P with inbound := [], pendingResult := none }
  let s := s.modTxn k fun t =>
    { t with
      result := r, detail := detail, segIndex := 0, writeCount := 0, readCount := 0,
      endTime := s.timebase }
  serviceEnd p k s

/-- The result of the in-service transaction is fixed and its read bytes, if it has any and came from
a request queue, are drained first (R51, R53). -/
def startDraining (p : PortId) (k : SlotId) (t : Txn) (s : State) : State :=
  match t.origin with
  | .rq _ =>
    if t.readCount = 0 then serviceEnd p k s
    else
      issue (.draining p) (.write (drainParts t.req (s.port p).inbound)) false
        (s.modTxn k fun t => { t with state := .draining })
  | .trigger _ => serviceEnd p k s

/-- An attempt of the in-service transaction `k` ends at `endTime` with a retry decision (R52): its
received bytes are discarded, and the transaction waits for the gap, or is READY with retry gap 0. A
disable pending ends it PORT_OFF in place of that (R59); a deadline that expired after the decision
ends it DEADLINE there (R57, log entry 45). -/
def endRetry (p : PortId) (k : SlotId) (expired : Bool) (endTime : Word) (s : State) : State :=
  let s := s.modPort p fun P => { P with inbound := [] }
  let s := s.modTxn k fun t =>
    { t with
      state := if t.req.retryGap = 0 then .ready else .retryWait, gapFrom := endTime }
  if (s.port p).disablePending then fixOutside p k .portOff 0 s
  else if expired then fixOutside p k .deadline 0 s
  else s

/-- The attempt in progress on `p` ends with an outcome, which goes to the scheduler with the counts,
the segment, the end time and the received bytes; the engine's context returns to its Reset values
(R51, R52, R81). -/
def finishAttempt (p : PortId) (outcome : AttemptOutcome) (endTime : Word) (s : State) : State :=
  let E := (s.port p).eng
  let s := s.modPort p fun P => { P with eng := Engine.reset }
  match (s.port p).inService with
  | none => s
  | some k =>
    let s := s.modTxn k fun t => { t with started := some (t.started.getD endTime) }
    match outcome with
    | .result r detail =>
      let s := s.modTxn k fun t =>
        { t with
          result := r, detail := detail, segIndex := E.segment, writeCount := E.writeCount,
          readCount := E.readCount, endTime := endTime }
      match s.txn k with
      | some t => startDraining p k t s
      | none => s
    | .retry => endRetry p k false endTime s
    | .retryExpired => endRetry p k true endTime s

/-- A pending result is set against the in-service transaction while none is set (R50). -/
def setPendingResult (p : PortId) (r : Result) (detail : Byte) (s : State) : State :=
  s.modPort p fun P =>
    { P with pendingResult := if P.pendingResult.isSome then P.pendingResult else some (r, detail) }

/-- The segment under way in an attempt: the one a repeated START is opening, once it is being made
(R68, R78, R82). -/
def Engine.segmentUnderWay (E : Engine) : Nat :=
  if E.phase = .opening && E.restart then E.segment + 1 else E.segment

/-- The port leaves MASTER for IDLE with no STOP made, since no START was; the timeout timers are set
back to 0 (R95), and an expiry that came together with this stays to be taken (R96). -/
def backToIdle (p : PortId) (s : State) : State :=
  (tieTimeouts p s).modPort p fun P =>
    { P with state := .idle, clockLowFrom := s.timebase, stuckDataFrom := s.timebase }

/-- The engine takes a byte-boundary stop (R82): the result becomes the outcome, and the phase decides
the conduct from here. -/
def takeStop (p : PortId) (r : StopResult) (s : State) : State :=
  let out : AttemptOutcome := .result r.result 0
  let s := s.modPort p fun P => { P with eng := { P.eng with stopReq := some r, outcome := some out } }
  let E := (s.port p).eng
  match E.phase with
  | .opening =>
    if E.restart then
      s.modPort p fun P =>
        { P with
          eng := { P.eng with phase := .closing, segment := P.eng.segment + 1, restart := false } }
    else
      finishAttempt p out s.timebase (backToIdle p (releaseLines p s))
  | .between =>
    finishAttempt p out E.closedAt
      (s.modPort p fun P => { P with eng := { P.eng with segment := P.eng.segment + 1 } })
  | _ => s

/-- Whether a stop request would be taken: an attempt in progress with no outcome decided (R82). -/
def Engine.takesStop (E : Engine) : Bool :=
  E.phase != .none && E.outcome.isNone && E.stopReq.isNone && !E.quiet

/-- Ask the engine for a byte-boundary stop; without effect when one is set or an outcome is decided
(R82). -/
def requestStop (p : PortId) (r : StopResult) (s : State) : State :=
  if (s.port p).eng.takesStop then takeStop p r s else s

/-- A deadline expires on an ACTIVE transaction (R57). While the attempt closes with a retry decision the
engine does nothing (R79, R82), and the transaction ends DEADLINE when it comes to RETRY_WAIT. -/
def expireActive (p : PortId) (s : State) : State :=
  if (s.port p).eng.outcome = some .retry then
    s.modPort p fun P => { P with eng := { P.eng with outcome := some .retryExpired } }
  else requestStop p .deadline s

/-- R60: the in-service transaction when the port enters FAULTED. -/
def faultService (p : PortId) (reason : FaultReason) (s : State) : State :=
  match (s.port p).inService with
  | none => s
  | some k =>
    match s.txn k with
    | none => s
    | some t =>
      match t.state with
      | .staging => setPendingResult p .busFault reason.code s
      | .ready | .retryWait => fixOutside p k .busFault reason.code s
      | _ => s

end Sys2Proof.Machine
end

