-- ==== Sys2Proof/Machine/CompletionOps.lean ====
section
/-! DEFINITION. Shared operations of the completion writer and the receive unit: admission of waiting
blocks (R111), a queue's entry to ERROR (R116), coalescing (R117), the ring's entry to ERROR (R160). -/

namespace Sys2Proof.Machine

/-- The receive unit's waiting record has been accepted (R163). -/
def receiveAccepted (s : State) : State := { s with rx := { s.rx with waiting := none } }

/-- The receive unit offers its waiting record (R163). -/
def offerReceive (s : State) : State :=
  match s.rx.waiting with
  | some r =>
    match tryOffer r.entry s with
    | some s' => receiveAccepted s'
    | none => s
  | none => s

/-- The holding list entry of a MALFORMED transaction (R11, R22). -/
def malformedEntry (k : SlotId) (t : Txn) : HoldEntry :=
  { record := txnRecord t, cq := t.cq, notify := t.req.notify, slot := some k }

/-- The record of the MALFORMED transaction in slot `k` has been accepted: the fetch unit is not, or no
longer, stalled (R35). -/
def malformedAccepted (k : SlotId) (s : State) : State :=
  { s.modTxn k (fun t => { t with state := .recorded }) with
    fetch := { s.fetch with stalled := none } }

/-- The fetch unit offers the record of a MALFORMED transaction; refused, the unit stalls (R11,
R35). -/
def offerMalformed (k : SlotId) (s : State) : State :=
  match s.txn k with
  | none => s
  | some t =>
    match tryOffer (malformedEntry k t) s with
    | some s' => malformedAccepted k s'
    | none => { s with fetch := { s.fetch with stalled := some k } }

/-- The fetch unit offers the record it is stalled on (R35). -/
def offerStalled (s : State) : State :=
  match s.fetch.stalled with
  | some k => offerMalformed k s
  | none => s

/-- The order of R111's search. -/
def blockOrder : List OfferBlock :=
  (allPorts.map OfferBlock.sched) ++ (allPorts.map OfferBlock.target) ++ [.fetchUnit, .receiveUnit]

/-- The blocks from the one after `b`, `b` last (R111). -/
def blocksAfter (b : OfferBlock) : List OfferBlock :=
  let i := (blockOrder.takeWhile fun c => c != b).length + 1
  blockOrder.drop i ++ blockOrder.take i

/-- The entry a block waits with after a refused offer, or none when it does not wait (R112). -/
def State.offeredEntry (s : State) : OfferBlock → Option HoldEntry
  | .sched p => (s.posting p).map fun x => serviceEntry x.1 x.2
  | .target p => (s.port p).tgt.records.head?.map fun r => r.receive.entry
  | .fetchUnit =>
    match s.fetch.stalled with
    | some k => (s.txn k).map (malformedEntry k)
    | none => none
  | .receiveUnit => s.rx.waiting.map ReceiveRecord.entry

/-- The queue of the record a block waits with. -/
def State.offerOf (s : State) (b : OfferBlock) : Option CqId := (s.offeredEntry b).map fun e => e.cq

/-- What follows for a block when the record it waited with has been accepted (R112). A target unit then
offers the records it made after it (R158). -/
def accepted : OfferBlock → State → State
  | .sched p, s =>
    match (s.port p).inService with
    | some k => serviceAccepted p k s
    | none => s
  | .target p, s =>
    match (s.port p).tgt.records with
    | r :: _ => offerTarget p (targetAccepted p r.message s)
    | [] => s
  | .fetchUnit, s =>
    match s.fetch.stalled with
    | some k => malformedAccepted k s
    | none => s
  | .receiveUnit, s => receiveAccepted s

/-- A block makes its offer again. -/
def offerAgain : OfferBlock → State → State
  | .sched p, s => offerService p s
  | .target p, s => offerTarget p s
  | .fetchUnit, s => offerStalled s
  | .receiveUnit, s => offerReceive s

/-- A block with the entry it waits with, when a place is what it waits for: its queue is RUNNING
(R111). -/
def State.claim (s : State) (b : OfferBlock) : Option (OfferBlock × HoldEntry) :=
  match s.offeredEntry b with
  | some e => if (s.cq e.cq).state = .running then some (b, e) else none
  | none => none

/-- The blocks that wait for a place, with their entries, from the block after the one last admitted;
as many as there are free places (R111). -/
def State.claims (s : State) : List (OfferBlock × HoldEntry) :=
  ((blocksAfter s.comp.lastAdmitted).filterMap s.claim).take
    (Config.holdingCapacity - s.comp.holding.length)

/-- The last of the blocks admitted, or `b` when none was. -/
def lastOf (b : OfferBlock) (l : List (OfferBlock × HoldEntry)) : OfferBlock :=
  l.foldl (fun _ x => x.1) b

/-- Places that have freed go to the blocks that wait, one to each, round-robin from the block after the
one last admitted (R111). What follows in the blocks comes when all have their places, so that an
offer made then takes no place a waiting block has a claim to. -/
def handOut (s : State) : State :=
  let given := s.claims
  given.foldl (fun s x => accepted x.1 s)
    { s with comp := { s.comp with
      holding := s.comp.holding ++ given.map Prod.snd,
      lastAdmitted := lastOf s.comp.lastAdmitted given } }

/-- A block waiting with a record for queue `n` is released by its queue's error (R111). -/
def releaseWaiting (n : CqId) (s : State) (b : OfferBlock) : State :=
  if s.offerOf b = some n then offerAgain b s else s

/-- Raise a queue's interrupt cause: its ISR bit is set, unannounced becomes 0 and its timer stops
(R117). -/
def raiseCq (n : CqId) (s : State) : State :=
  raiseIsr (1 + n.val) (s.modCq n fun c => { c with unannounced := 0, timer := none })

/-- A record of queue `n` is announced, and coalescing acts on it (R114 step 4, R117). With L 0 the
timer expires at its start. -/
def announce (n : CqId) (notify : Bool) (s : State) : State :=
  let s := s.modCq n fun c =>
    { c with
      unannounced := c.unannounced + 1,
      timer := if c.unannounced = 0 then some s.timebase else c.timer }
  if notify || decide ((s.cq n).k.toNat ≤ (s.cq n).unannounced) || (s.cq n).l == 0 then raiseCq n s
  else s

/-- Whether a record write of queue `n` is in progress (R114). -/
def Writer.writes (w : Writer) (n : CqId) : Bool :=
  match w with
  | .record e => e.cq == n
  | _ => false

/-- Take the entries of queue `n` out of the holding list and discard them in order (R116). -/
def discardQueue (n : CqId) (s : State) : State :=
  let gone := s.comp.holding.filter fun e => e.cq == n
  gone.foldl (fun s e => discard e s)
    { s with comp := { s.comp with holding := s.comp.holding.filter fun e => e.cq != n } }

/-- The request queues bound to a queue that enters ERROR (R41). -/
def failBound (n : CqId) (s : State) : State :=
  allRqs.foldl (fun s q => if (s.rq q).cq = n then rqEnterError q .cqError s else s) s

/-- A completion queue in RUNNING enters ERROR (R109, R115, R116): its status word is written, but for
a record write in progress whose own status word then shows ERROR; a pending cause is raised; its
latch is set; bound request queues are told; its records are discarded, the places they leave go to
the blocks waiting for one, and the blocks waiting with a record for it are released (R111). -/
def cqEnterError (n : CqId) (reason : CqReason) (s : State) : State :=
  if (s.cq n).state = .running then
    let s := s.modCq n fun c => { c with state := .error, reason := reason }
    let s :=
      if s.comp.writer.writes n then s
      else issueErrorStatus (.cqStatus n .change) (s.cqStatusXfer n) (reason == .hostFault) s
    let s := if 0 < (s.cq n).unannounced then raiseCq n s else s.modCq n fun c => { c with timer := none }
    let s := setLatch (.cqError n) reason.code s
    blockOrder.foldl (releaseWaiting n) (handOut (discardQueue n (failBound n s)))
  else s

/-- The receive ring in RUNNING enters ERROR: its status word is written and its latch is set; a
mailbox decision that waited for the ring is taken again (R160, R161, R163, R155). -/
def rxEnterError (reason : RxReason) (s : State) : State :=
  if s.rx.state = .running then
    let s := { s with rx := { s.rx with state := .error, reason := reason } }
    decideAll (setLatch .ringError reason.code
      (issueErrorStatus .rxStatus s.rxStatusXfer (reason == .statusWrite) s))
  else s

end Sys2Proof.Machine
end

