-- ==== Sys2Proof/Machine/PortOps.lean ====
section
/-! DEFINITION. Shared operations of the bus engines: entering IDLE and FAULTED, recovery, arbitration
loss, and the conduct at a halt or a stop (chapters 4 and 5). -/

namespace Sys2Proof.Machine

/-- The monitor reports FREE and the port enters IDLE: the in-step flag is set, the fault reason is
cleared, the timeout timers are set back to 0 and an enabling wait ends with SUCCESS (R89, R91, R93,
R95). A port told to disable enters OFF
instead, since the transfer it was told in has ended (R94). -/
def enterIdle (p : PortId) (s : State) : State :=
  let s := s.modPort p fun P =>
    { P with
      state := .idle, inStep := true, busFree := true, awaitAddr := false, reason := none,
      enabling := false, clockLowFrom := s.timebase, stuckDataFrom := s.timebase }
  let s := completeIf (.port p .enable) .success 0 s
  if (s.port p).tgt.disableTold then enterOff p s else s

/-- The port enters FAULTED (R100, R60): lines released, counted, latched, the in-service transaction
ended; a waiting ENABLE PORT or RESTART PORT completes STUCK (R93, R101), and a port told to disable
enters OFF (R94). -/
def enterFaulted (p : PortId) (reason : FaultReason) (s : State) : State :=
  let s := s.modPort p fun P =>
    { P with
      state := .faulted, inStep := false, awaitAddr := false, enabling := false,
      reason := some reason, recovery := .none, sclDriven := false, sdaDriven := false,
      stats := { P.stats with faults := P.stats.faults + 1 } }
  let s := setLatch (.portFault p) reason.code s
  let s := completeIf (.port p .enable) .stuck (reason.code.setWidth 32) s
  let s := completeIf (.port p .restart) .stuck (reason.code.setWidth 32) s
  let s := faultService p reason s
  if (s.port p).tgt.disableTold then enterOff p s else s

/-- The recovery procedure, or a restart, starts (R97 step 1, R101): the port is RECOVERING, its lines are
released and its in-step flag is cleared. The idle timer starts again here, so that the idle wait of a
restart counts no time before the command. DESIGN CHOICE (log entry 47). -/
def startRecovery (p : PortId) (s : State) : State :=
  touch p (s.modPort p fun P =>
    { P with
      state := .recovering, inStep := false, awaitAddr := false,
      recovery := .waitScl s.timebase, sclDriven := false, sdaDriven := false })

/-- The engine begins the STOP of R98. -/
def startRecoveryStop (p : PortId) (s : State) : State :=
  touch p (s.modPort p fun P =>
    { P with recovery := .stopping s.timebase, sclDriven := false, sdaDriven := true })

/-- The port leaves RECOVERING: to IDLE, or to OBSERVING out of step when another device's START ended
the wait; RESTART PORT completes with SUCCESS, and a port told to disable enters OFF (R98, R101,
R94). -/
def leaveRecovery (p : PortId) (idle : Bool) (s : State) : State :=
  let s := releaseLines p (s.modPort p fun P => { P with recovery := .none })
  let s := completeIf (.port p .restart) .success 0 s
  if idle then enterIdle p s
  else
    let s := s.modPort p fun P =>
      { P with
        state := .observing, inStep := false, busFree := false, awaitAddr := true, reason := none,
        clockLowFrom := s.timebase, stuckDataFrom := s.timebase }
    if (s.port p).tgt.disableTold then enterOff p s else s

/-- A recovery procedure succeeds: it is counted and latched (R98). -/
def recoverySucceeds (p : PortId) (idle : Bool) (s : State) : State :=
  leaveRecovery p idle
    (setLatch (.portRecovered p) 0
      (s.modStats p fun c => { c with recoveries := c.recoveries + 1 }))

/-! ### The end of an attempt without an outcome (R85) -/

/-- The attempt ends without an outcome at a stop or a halt: the context returns to its Reset values
and the transaction stays in service, READY (R85). -/
def endQuiet (p : PortId) (s : State) : State :=
  let s := s.modPort p fun P =>
    { P with eng := Engine.reset, sclDriven := false, sdaDriven := false }
  match (s.port p).inService with
  | some k => s.modTxn k fun t => { t with state := .ready }
  | none => s

/-- At a controller stop or a halt the engine goes to its byte boundary (R85): before a START, or in
BETWEEN, the attempt ends with nothing driven; a repeated START not yet made becomes a STOP; from
any other phase the attempt goes on quietly. -/
def takeQuiet (p : PortId) (s : State) : State :=
  let E := (s.port p).eng
  match E.phase with
  | .none => s
  | .between => endQuiet p s
  | .opening =>
    if E.restart then
      s.modPort p fun P =>
        { P with
          eng := { P.eng with phase := .closing, segment := P.eng.segment + 1, restart := false, quiet := true } }
    else endQuiet p (backToIdle p s)
  | _ => s.modPort p fun P => { P with eng := { P.eng with quiet := true } }

/-- A port whose lines the target unit leaves is OBSERVING (R165). -/
def leaveTarget (p : PortId) (s : State) : State :=
  s.modPort p fun P => { P with state := if P.state = .target then .observing else P.state }

/-- What the entry to HALTED does to a port (R85, R102, R165): the engine conducts itself as at a
stop, the transfer in progress ends, a recovery or restart is abandoned, and a port told to disable
enters OFF. -/
def haltPort (s : State) (p : PortId) : State :=
  let s := takeQuiet p s
  let s := if (s.port p).eng.phase = .none then releaseLines p s else s
  let s := if (s.port p).tgt.transfer = .none then s else endTransfer p false true s
  let s := leaveTarget p (s.modPort p fun P => { P with recovery := .none })
  if (s.port p).tgt.disableTold then enterOff p s else s

/-- What the entry to STOPPING does to a port (R195): as at a halt for the engine; a target transfer
is left with its message dropped, and a recovery or restart is abandoned. -/
def stopPort (s : State) (p : PortId) : State :=
  let s := takeQuiet p s
  let s := if (s.port p).eng.phase = .none then releaseLines p s else s
  leaveTarget p (s.modPort p fun P =>
    { P with recovery := .none, tgt := { P.tgt with transfer := .none } })

/-! ### Arbitration loss (R78 to R80) -/

/-- The outcome of a loss: a retry decision while arbitration retries remain, otherwise ARB_LOST
(R12, R78). -/
def lossOutcome (t : Txn) (place : LossPlace) : AttemptOutcome :=
  if t.arbUsed < t.req.arbRetries.toNat then .retry else .result .arbLost (lossDetail place)

/-- A loss that finds no outcome decided decides it; a retry decision uses one arbitration retry
(R12, R79). -/
def settleLoss (p : PortId) (place : LossPlace) (s : State) : State :=
  let E := (s.port p).eng
  match E.outcome with
  | some out => finishAttempt p out s.timebase s
  | none =>
    match (s.port p).inService with
    | none => finishAttempt p .retry s.timebase s
    | some k =>
      match s.txn k with
      | none => finishAttempt p .retry s.timebase s
      | some t =>
        let out := lossOutcome t place
        finishAttempt p out s.timebase
          (if out = .retry then s.modTxn k fun t => { t with arbUsed := t.arbUsed + 1 } else s)

/-- The engine detects a loss (R78): it releases both lines, counts the loss, the port passes to
OBSERVING, and the attempt ends; without an outcome at a stop or a halt (R85). `starts` tells that the
loss was another device's START, whose address byte follows. The monitor's verdict stays as the lines
made it (R88); a timeout that comes together with the loss stays to be taken (R96). -/
def loseArbitration (p : PortId) (place : LossPlace) (starts : Bool) (s : State) : State :=
  let s := touch p ((tieTimeouts p s).modPort p fun P =>
    { P with
      state := .observing, awaitAddr := starts, sclDriven := false, sdaDriven := false,
      stats := { P.stats with arbLosses := P.stats.arbLosses + 1 },
      eng := { P.eng with segment := P.eng.segmentUnderWay } })
  if (s.port p).eng.quiet then endQuiet p s else settleLoss p place s

/-! ### Timeouts (R95, R96) -/

/-- Whether the timeout timers of a port run: not with bus timeout 0, and only in IDLE, OBSERVING,
MASTER and TARGET (R95); they stop in HALTED (R102), and in STOPPING go on only for an attempt that
is completing its byte-boundary stop (R195). R85 gives a halt the conduct of a stop, in which a timeout
still releases the lines, and R102 stops the timeouts: R102 is followed. DESIGN CHOICE (log entry 48). -/
def State.timersRun (s : State) (p : PortId) : Bool :=
  let P := s.port p
  P.cfg.busTimeout != 0 &&
    (P.state == .idle || P.state == .observing || P.state == .master || P.state == .target) &&
    (s.link.ctrl == .running || (s.link.ctrl == .stopping && P.eng.quiet))

/-- The port leaves its state after a timeout (R96 step 5). -/
def leaveOnTimeout (p : PortId) (reason : FaultReason) (s : State) : State :=
  if (s.port p).cfg.recovery then startRecovery p s else enterFaulted p reason s

/-- The attempt in progress ends BUS_TIMEOUT (R96 step 3). A pending disable is told when the port has
left its state (R59, R94). -/
def timeoutAttempt (p : PortId) (detail : Byte) (s : State) : State :=
  let pending := (s.port p).disablePending
  let s := s.modPort p fun P =>
    { P with disablePending := false, eng := { P.eng with segment := P.eng.segmentUnderWay } }
  (finishAttempt p (.result .busTimeout detail) s.timebase s).modPort p
    fun P => { P with disablePending := pending }

/-- What a timeout expiry does after it has been counted, in R96's order: the lines are released, an
attempt in progress ends BUS_TIMEOUT at the expiry, a target transfer ends, and the port leaves its
state; a pending disable is told when the attempt's transaction has left the list (R59).
In STOPPING both lines are released and the attempt ends without an outcome (R85, R195). -/
def timeoutEffects (p : PortId) (reason : FaultReason) (detail : Byte) (s : State) : State :=
  let s := (releaseLines p s).modPort p fun P => { P with tied := [] }
  if (s.port p).eng.quiet then
    endQuiet p (s.modPort p fun P => { P with state := .observing })
  else
    let attempt := (s.port p).eng.phase != .none
    let s := if attempt then timeoutAttempt p detail s else s
    let s := if (s.port p).tgt.transfer = .none then s else endTransfer p false true s
    let s := leaveOnTimeout p reason s
    if attempt && (s.port p).disablePending && (s.port p).inService.isNone then tellDisable p s else s

end Sys2Proof.Machine
end

