-- ==== Sys2Proof/Machine/Controller.lean ====
section
/-! DEFINITION. The controller states and the resets (chapter 10): power-on, link and soft reset, start,
halt, stop, the setup block header, and the controller status word. -/

namespace Sys2Proof.Machine

/-! ### Resets (R197) -/

/-- The part after a reset: every piece of state at its reset value. The commands that wait and the
ALERT# levels are inputs, not state the reset clears (log entry 3); bus mastering and the link reset
input are as given. -/
def resetAll (busMaster linkReset : Bool) (s : State) : State :=
  { State.reset with
    pending := s.pending,
    link := { Link.reset with busMaster := busMaster, linkReset := linkReset },
    trig := { TrigUnit.reset with alertLow := s.trig.alertLow } }

/-- POWER_ON_RESET (R197): acts also while link reset is asserted, and leaves that input as it is. -/
def execPowerOnReset (s : State) : Host.Outcome State Fault Refusal :=
  .next (resetAll false s.link.linkReset s)

/-- LINK_RESET (R197): the input is asserted, and the part stays in reset until it is deasserted. -/
def execLinkReset (s : State) : Host.Outcome State Fault Refusal := .next (resetAll false true s)

/-- LINK_RESET_DEASSERTED (R197): the part leaves reset in DISABLED. -/
def execLinkResetDeasserted (s : State) : Host.Outcome State Fault Refusal :=
  .next { s with link := { s.link with linkReset := false } }

/-- A soft reset (R188, R197): the link configuration, with bus mastering, is not reset. -/
def softReset (s : State) : State := resetAll s.link.busMaster s.link.linkReset s

/-- SOFT_RESET (R188): EN in the same write is ignored. -/
def execSoftReset (_en : Bool) (s : State) : Host.Outcome State Fault Refusal :=
  .next (awake s softReset)

/-! ### Start (R188, R193) -/

/-- EN written 1 with SRST 0 (R188, R189, R193): in DISABLED the controller enters STARTING, the halt
fault is cleared, the setup block base is copied, and the header read is issued; in any other state
the write is ignored. -/
def enableController (s : State) : State :=
  if s.link.ctrl = .disabled then
    let base : Addr := s.link.sbh ++ s.link.sbl
    issue .header (.read [(base, 64)]) false
      { s with
        link := { s.link with
          ctrl := .starting, en := true, haltFault := .nothing, setupBase := base } }
  else s

/-- CONTROLLER_ENABLE (R188). -/
def execControllerEnable (s : State) : Host.Outcome State Fault Refusal :=
  .next (awake s enableController)

/-! ### Halt (R194) -/

/-- Whether a halt fault leaves the management unit writing event records (R173). -/
def HaltFault.keepsEvents : HaltFault → Bool
  | .mqFetch | .mqCount => true
  | _ => false

/-- Entry to HALTED from STARTING or RUNNING (R194): GSR shows the fault, ISR bit 7 is set, the
controller status word is written, and each block takes the halt as R173, R143, R85, R102 and R165
give. A halt cause in any other state changes nothing. The ports take the halt in the order P0 to P3.
DESIGN CHOICE (log entry 49). -/
def enterHalted (f : HaltFault) (s : State) : State :=
  if s.link.ctrl = .starting || s.link.ctrl = .running then
    let s := { s with link := { s.link with ctrl := .halted, haltFault := f } }
    let s := writeControllerStatus (raiseIsr 7 s)
    let s := s.modMgmt fun m =>
      { m with command := none, due := none, muted := m.muted || !f.keepsEvents }
    let s := { s with
      rqs := s.rqs.map fun c => { c with deletePending := false },
      trig := { s.trig with prescaler := none, tickDue := [] } }
    allPorts.foldl haltPort s
  else s

/-! ### Stop (R195, R196) -/

/-- EN written 0 with SRST 0 (R188, R195): in STARTING, RUNNING and HALTED the controller enters
STOPPING; otherwise the write is ignored. -/
def stopController (s : State) : State :=
  if s.link.ctrl = .starting || s.link.ctrl = .running || s.link.ctrl = .halted then
    let s := { s with link := { s.link with ctrl := .stopping, en := false } }
    let s := { s with trig := { s.trig with prescaler := none, tickDue := [] } }
    allPorts.foldl stopPort s
  else s

/-- CONTROLLER_STOP (R195). -/
def execControllerStop (s : State) : Host.Outcome State Fault Refusal :=
  .next (awake s stopController)

/-- Whether a port is at rest: both lines released and no attempt on its way to its STOP (R195). -/
def Port.atRest (P : Port) : Bool := !P.sclDriven && !P.sdaDriven && P.eng.phase == .none

/-- Whether the stop is complete: every port at rest and every host access ended (R195). -/
def State.stopDone (s : State) : Bool :=
  s.link.ctrl == .stopping && s.accesses.isEmpty && allPorts.all fun p => (s.port p).atRest

/-- The part at the end of STOPPING (R196): every piece of state at its controller-stop value. -/
def stopped (s : State) : State :=
  { State.reset with
    pending := s.pending, timebase := s.timebase,
    link := { s.link with ctrl := .disabled, en := false },
    ints := { s.ints with isr := 0 },
    trig := { TrigUnit.reset with alertLow := s.trig.alertLow } }

/-- STOP_COMPLETE (R196). -/
def execStopComplete (s : State) : Host.Outcome State Fault Refusal :=
  .next (awake s fun s => if s.stopDone then stopped s else s)

/-! ### The setup block header (R193) -/

/-- Entry to RUNNING (R193, R166, R192): the management unit takes bases and sizes and writes the MQ
status word (the MCQ status word follows it), and the controller status word is written. -/
def enterRunning (h : List Byte) (s : State) : State :=
  let s := { s with link := { s.link with ctrl := .running } }
  let s := s.modMgmt fun m =>
    { m with
      mqBase := rd64 h 0, mcqBase := rd64 h 8, mqSize := rd16 h 16, mcqSize := rd16 h 18 }
  writeControllerStatus (writeMqStatus true s)

/-- The end of the header read, judged in STARTING (R193). -/
def headerEnd (ok : Bool) (h : List Byte) (s : State) : State :=
  if s.link.ctrl = .starting then
    if !ok then enterHalted .setupFault s
    else if headerOk h then enterRunning h s
    else enterHalted .startInvalid s
  else s

/-- Whether an access is of a kind. -/
def isKind (k : AccessKind) (a : Access) : Bool := a.kind == k

/-- HEADER_READ_END (R193). -/
def execHeaderReadEnd (ok : Bool) (data : Vector Byte 64) (s : State) :
    Host.Outcome State Fault Refusal :=
  .next (awake s fun s =>
    endAccess (isKind .header) 0 ok 64 (fun _ ok s => headerEnd ok data.toList s) s)

/-- CONTROLLER_STATUS_WORD_WRITE_END (R192): a failure has no effect. -/
def execControllerStatusWordWriteEnd (k : Nat) (ok : Bool) (s : State) :
    Host.Outcome State Fault Refusal :=
  .next (awake s fun s => endAccess (isKind .controllerStatus) k ok 0 (fun _ _ s => s) s)

end Sys2Proof.Machine
end

