-- ==== Sys2Proof/Machine/Fetch.lean ====
section
/-! DEFINITION. The request queues and the fetch unit (chapter 2): notifies, the arbiter's turns, the
entry read, placement, and the request queue status word. -/

namespace Sys2Proof.Machine

/-- Whether a ring offers an entry: (posted − taken) mod 65536 lies in 1 to size (R32, R161, R169). -/
def ringOffers (posted taken size : Half) : Bool :=
  posted != taken && decide ((posted - taken).toNat ≤ size.toNat)

/-- The address of entry `c` of a ring whose entries have `bytes` bytes (R23, R105, R160, R166). -/
def ringAddr (base : Addr) (size c : Half) (bytes : Nat) : Addr :=
  base + BitVec.ofNat 64 (bytes * (c.toNat % size.toNat))

/-- The claimed count of a ring: the taken count, plus 1 while an entry read is in progress (R26). -/
def claimed (taken : Half) (reading : Bool) : Half := if reading then taken + 1 else taken

/-- A posted count is a count error when it lies more than the size above the claimed count (R26,
R161, R167). -/
def postedError (count claimedCount size : Half) : Bool := decide (size.toNat < (count - claimedCount).toNat)

/-- The stray-notify bit is set (R190). -/
def setStray (s : State) : State := { s with link := { s.link with stray := true } }

/-- A posted notify for RQ `q` (R26, R27). -/
def takeRqNotify (q : RqId) (count : Half) (s : State) : State :=
  match (s.rq q).state with
  | .absent => setStray s
  | .running =>
    let s' := s.modRq q fun c => { c with posted := count }
    if postedError count (claimed (s.rq q).taken (s.reading q)) (s.rq q).size then
      rqEnterError q .count s'
    else s'
  | _ => s.modRq q fun c => { c with posted := count }

/-- Whether RQ `q` is eligible for fetch (R30). -/
def State.eligible (s : State) (q : RqId) : Bool :=
  let c := s.rq q
  c.state == .running && ringOffers c.posted c.taken c.size && c.hold.isNone &&
    s.freeRequestSlot.isSome

/-- Reserve a slot and issue the read of the next entry of `q`; `count` entries of the turn have been
taken (R32 step 1). -/
def issueEntryRead (q : RqId) (count : Nat) (s : State) : State :=
  match s.freeRequestSlot with
  | none => s
  | some k =>
    let c := s.rq q
    let s := s.setSlot k .reserved
    let s := { s with
      fetch := { s.fetch with turn := some { q := q, count := count, slot := k } } }
    issue (.rqEntry q) (.read [(ringAddr c.base c.size c.taken 64, 64)]) false s

/-- The arbiter gives a turn to the next eligible queue (R31). -/
def fetchTurn (s : State) : State :=
  if s.fetch.turn.isNone && s.fetch.stalled.isNone then
    match (after s.fetch.lastServed).find? s.eligible with
    | some q => issueEntryRead q 0 { s with fetch := { s.fetch with lastServed := q } }
    | none => s
  else s

/-- FETCH_TURN (R31). -/
def execFetchTurn (s : State) : Host.Outcome State Fault Refusal := .next (whenRunning s fetchTurn)

/-- The transaction of an entry just taken (R1, R12, R32); a malformed one has its result at once
(R11). -/
def takenTxn (q : RqId) (cq : CqId) (deleting : Bool) (now : Word) (req : Request) : Txn :=
  let base : Txn :=
    { req := req, origin := .rq q, port := portOf req.port, cq := cq, state := .held,
      mark := if deleting then some .flushed else none, takenAt := now, arbUsed := 0, nackUsed := 0,
      attempts := 0, started := none, gapFrom := now, result := .ok, detail := 0, segIndex := 0,
      writeCount := 0, readCount := 0, endTime := now, trig := none }
  match malformation req with
  | some (detail, i) =>
    { base with
      state := .malformed, mark := none, result := .malformed, detail := detail, segIndex := i }
  | none => base

/-- A well-formed transaction just taken is held for its fence or for room, or placed (R37). -/
def placeOrHold (q : RqId) (k : SlotId) (t : Txn) (s : State) : State :=
  if s.fenceOk q t && !s.listFull t.port then insertTxn k t s
  else s.modRq q fun c => { c with hold := some k }

/-- The turn ends: the status word is written if an entry was taken in it and the queue still exists
(R28), and a deletion that waited for the read may end (R43). A change of the queue's state during the
turn, with an entry taken in it, has been written at the change, and the turn's end writes again.
DESIGN CHOICE (log entry 52). -/
def endTurn (q : RqId) (taken : Bool) (s : State) : State :=
  let s := { s with fetch := { s.fetch with turn := none } }
  deletionEnd q (if taken && (s.rq q).state != .absent then writeRqStatus q false s else s)

/-- An entry is taken (R32 steps 2 and 3), and the turn goes on or ends (R31). -/
def takeEntry (tn : Turn) (e : List Byte) (s : State) : State :=
  let q := tn.q
  let t := takenTxn q (s.rq q).cq ((s.rq q).state == .deleting) s.timebase (parseRequest e)
  let s := (s.modRq q fun c =>
    { c with taken := c.taken + 1, openCount := c.openCount + 1 }).setSlot tn.slot (.txn t)
  let s := if t.state = .malformed then offerMalformed tn.slot s else placeOrHold q tn.slot t s
  if s.link.ctrl = .running && s.fetch.stalled.isNone &&
      decide (tn.count + 1 < (s.rq q).weight.toNat) && s.eligible q then
    issueEntryRead q (tn.count + 1) s
  else endTurn q true s

/-- An entry read fails (R33): the reserved slot is released, a RUNNING queue enters ERROR, and the
turn ends. One status word serves the change of state and the end of the turn (R28). -/
def entryReadFails (tn : Turn) (s : State) : State :=
  let s := s.setSlot tn.slot .free
  if (s.rq tn.q).state = .running then endTurn tn.q false (rqEnterError tn.q .entryRead s)
  else endTurn tn.q (tn.count != 0) s

/-- The end of the entry read in progress (R32, R33). -/
def rqEntryEnd (ok : Bool) (e : List Byte) (s : State) : State :=
  match s.fetch.turn with
  | some tn => if ok then takeEntry tn e s else entryReadFails tn s
  | none => s

/-- Whether an access is the entry read of some request queue. -/
def isRqEntry (a : Access) : Bool :=
  match a.kind with
  | .rqEntry _ => true
  | _ => false

/-- RQ_ENTRY_READ_END (R32). -/
def execRqEntryReadEnd (ok : Bool) (data : Vector Byte 64) (s : State) :
    Host.Outcome State Fault Refusal :=
  .next (awake s fun s => endAccess isRqEntry 0 ok 64 (fun _ ok s => rqEntryEnd ok data.toList s) s)

/-- The command that waits for a status word write completes with SUCCESS, whether the write
succeeded or failed (R25, R43, R107, R108, R179). -/
def statusWordEnded (a : Access) (s : State) : State :=
  if a.forCommand then completeIf .statusWord .success 0 s else s

/-- The end of a status word write of RQ `q` (R29): a failure acts by the queue's state, and one of the
write for a change that a failed write caused not at all. The command that waits for it completes with
SUCCESS (R25, R43). -/
def rqStatusEnd (q : RqId) (a : Access) (ok : Bool) (s : State) : State :=
  statusWordEnded a (if ok || a.further then s else rqEnterError q .statusWrite s)

/-- RQ_STATUS_WORD_WRITE_END (R29). -/
def execRqStatusWordWriteEnd (q : RqId) (k : Nat) (ok : Bool) (s : State) :
    Host.Outcome State Fault Refusal :=
  .next (awake s fun s =>
    endAccess (isKind (.rqStatus q)) k ok 0 (fun a ok s => rqStatusEnd q a ok s) s)

end Sys2Proof.Machine
end

