-- ==== Sys2Proof/Machine/Completion.lean ====
section
/-! DEFINITION. The completion writer's steps (chapter 6): consumed notifies, selection, the record and
status word writes, and the coalescing timer. -/

namespace Sys2Proof.Machine

/-- A consumed count is a count error when it lies more above the stored one than the produced count
does (R109, R168). -/
def consumedError (count consumed produced : Half) : Bool :=
  decide ((produced - consumed).toNat < (count - consumed).toNat)

/-- A consumed notify for CQ `n` (R109, R116). -/
def takeCqNotify (n : CqId) (count : Half) (s : State) : State :=
  match (s.cq n).state with
  | .absent => setStray s
  | .running =>
    let s' := s.modCq n fun c => { c with consumed := count }
    if consumedError count (s.cq n).consumed (s.cq n).produced then cqEnterError n .count s' else s'
  | .error => s.modCq n fun c => { c with consumed := count }

/-- The free space of a ring the 3240 fills (R105, R168). -/
def freeSpace (produced consumed size : Half) : Nat := size.toNat - (produced - consumed).toNat

/-- Whether the writer may select an entry: its queue is RUNNING and has free space (R114). -/
def State.selectable (s : State) (e : HoldEntry) : Bool :=
  let c := s.cq e.cq
  c.state == .running && decide (0 < freeSpace c.produced c.consumed c.size)

/-- Take out of the holding list its oldest selectable entry (R114). -/
def pickEntry (f : HoldEntry → Bool) : List HoldEntry → Option (HoldEntry × List HoldEntry)
  | [] => none
  | e :: es => if f e then some (e, es) else (pickEntry f es).map fun r => (r.1, e :: r.2)

/-- The writer selects a record (R114 step 1): the entry leaves the list, its write is issued, and the
place freed is handed out (R111). -/
def selectRecord (s : State) : State :=
  if s.comp.writer = .idle then
    match pickEntry s.selectable s.comp.holding with
    | some (e, rest) =>
      let s := { s with comp := { s.comp with holding := rest, writer := .record e } }
      let c := s.cq e.cq
      let s := issue .cqRecord (.write [(ringAddr c.base c.size c.produced 32, e.record)]) false s
      handOut s
    | none => s
  else s

/-- RECORD_SELECTION (R114): the writer works while the controller is RUNNING or HALTED. -/
def execRecordSelection (s : State) : Host.Outcome State Fault Refusal := .next (whenLive s selectRecord)

/-- The end of a record write (R114 steps 2 and 3, R115). A queue that went into ERROR during the write
shows it in the status word that follows; one whose write failed then shows it at once. R115 and R116
give no order between the discard of the record whose write failed and that of the queue's waiting
records and the release of the waiting blocks; it is discarded last. DESIGN CHOICE (log entry 54). -/
def recordEnd (ok : Bool) (s : State) : State :=
  match s.comp.writer with
  | .record e =>
    if ok then
      let s := discard e s
      let s := s.modCq e.cq fun c => { c with produced := c.produced + 1 }
      writeCqStatus e.cq .record false { s with comp := { s.comp with writer := .status e.cq e.notify } }
    else
      let s := { s with comp := { s.comp with writer := .idle } }
      let s := if (s.cq e.cq).state = .running then cqEnterError e.cq .hostFault s
        else writeCqStatus e.cq .change false s
      discard e s
  | _ => s

/-- RECORD_WRITE_END (R114). -/
def execRecordWriteEnd (ok : Bool) (s : State) : Host.Outcome State Fault Refusal :=
  .next (awake s fun s => endAccess (isKind .cqRecord) 0 ok 0 (fun _ ok s => recordEnd ok s) s)

/-- The status word write that follows a record has ended (R114 step 4, R115). -/
def recordStatusEnd (n : CqId) (ok : Bool) (s : State) : State :=
  match s.comp.writer with
  | .status _ notify =>
    let s := { s with comp := { s.comp with writer := .idle } }
    if ok then announce n notify s else cqEnterError n .hostFault s
  | _ => s

/-- The end of a status word write of CQ `n`, by its occasion (R107, R108, R113 to R115). A failure acts
by the queue's state; one of the write for a change that a failed write caused not at all (R115). -/
def cqStatusEnd (n : CqId) (why : CqStatusFor) (a : Access) (ok : Bool) (s : State) : State :=
  match why with
  | .record => recordStatusEnd n ok s
  | .change => if ok || a.further then s else cqEnterError n .hostFault s
  | .create => statusWordEnded a (if ok then s else cqEnterError n .hostFault s)
  | .delete => statusWordEnded a (s.modCq n fun _ => CqCtx.reset)

/-- Whether an access is a status word write of CQ `n`. -/
def isCqStatus (n : CqId) (a : Access) : Bool :=
  match a.kind with
  | .cqStatus m _ => m == n
  | _ => false

/-- The occasion of a CQ status word write. -/
def Access.occasion (a : Access) : CqStatusFor :=
  match a.kind with
  | .cqStatus _ why => why
  | _ => .change

/-- CQ_STATUS_WORD_WRITE_END (R114). -/
def execCqStatusWordWriteEnd (n : CqId) (k : Nat) (ok : Bool) (s : State) :
    Host.Outcome State Fault Refusal :=
  .next (awake s fun s =>
    endAccess (isCqStatus n) k ok 0 (fun a ok s => cqStatusEnd n a.occasion a ok s) s)

/-- The coalescing timer of CQ `n` reaches L (R117). -/
def coalescingExpiry (n : CqId) (s : State) : State :=
  match (s.cq n).timer with
  | some t => if (s.cq n).l.toNat ≤ s.since t then raiseCq n s else s
  | none => s

/-- COALESCING_TIMER_EXPIRY (R117). A timer that reaches L in STOPPING sets no cause and sends no message:
DESIGN CHOICE (log entry 53), as R117 names no controller state and R195 names no timer. -/
def execCoalescingTimerExpiry (n : CqId) (s : State) : Host.Outcome State Fault Refusal :=
  .next (whenLive s (coalescingExpiry n))

end Sys2Proof.Machine
end

