-- ==== Sys2Proof/Machine/Management.lean ====
section
/-! DEFINITION. The management rings (chapter 9): notifies, taking an MQ entry, the MCQ write sequence
and event records. -/

namespace Sys2Proof.Machine

/-! ### Notifies (R167, R168) -/

/-- A posted notify for the MQ (R167): checked while RUNNING, stored while HALTED. -/
def takeMqNotify (count : Half) (s : State) : State :=
  let s' := s.modMgmt fun m => { m with mqPosted := count }
  if s.link.ctrl = .running &&
      postedError count (claimed s.mgmt.mqTaken s.mgmt.reading) s.mgmt.mqSize then
    enterHalted .mqCount s'
  else s'

/-- Whether the management unit still writes to the MCQ (R173). -/
def State.mcqOpen (s : State) : Bool :=
  s.link.ctrl == .running || (s.link.ctrl == .halted && !s.mgmt.muted)

/-- Whether an MCQ write sequence in progress goes on to its status word: while the unit writes to the
MCQ, and in STOPPING, to the end of a sequence in progress (R171, R173, R195). DEDUCED (log entry
51). -/
def State.sequenceGoesOn (s : State) : Bool :=
  s.mcqOpen || (s.link.ctrl == .stopping && !s.mgmt.muted)

/-- A consumed notify for the MCQ (R168): a count error halts the controller, or in HALTED ends all
further MCQ writing; when nothing more is written the count is stored without a check. -/
def takeMcqNotify (count : Half) (s : State) : State :=
  let s' := s.modMgmt fun m => { m with mcqConsumed := count }
  if s.mcqOpen && consumedError count s.mgmt.mcqConsumed s.mgmt.mcqProduced then
    if s.link.ctrl = .running then enterHalted .mcqCount s'
    else s'.modMgmt fun m => { m with muted := true }
  else s'

/-! ### The management queue (R169) -/

/-- Issue the read of the next MQ entry when the conditions of R169 hold. -/
def takeMqEntry (s : State) : State :=
  let m := s.mgmt
  if m.command.isNone && m.due.isNone && !m.reading && ringOffers m.mqPosted m.mqTaken m.mqSize then
    issue .mqEntry (.read [(ringAddr m.mqBase m.mqSize m.mqTaken 64, 64)]) false
      (s.modMgmt fun m => { m with reading := true })
  else s

/-- MQ_ENTRY_TAKE (R169). -/
def execMqEntryTake (s : State) : Host.Outcome State Fault Refusal :=
  .next (whenRunning s takeMqEntry)

/-- The end of the MQ entry read (R169). A read that ends in HALTED is not executed. -/
def mqEntryEnd (ok : Bool) (e : List Byte) (s : State) : State :=
  let s := s.modMgmt fun m => { m with reading := false }
  if s.link.ctrl = .running then
    if ok then
      writeMqStatus false (s.modMgmt fun m =>
        { m with mqTaken := m.mqTaken + 1, command := some { entry := e, phase := .mqStatus } })
    else enterHalted .mqFetch s
  else s

/-- MQ_ENTRY_READ_END (R169). -/
def execMqEntryReadEnd (ok : Bool) (data : Vector Byte 64) (s : State) :
    Host.Outcome State Fault Refusal :=
  .next (awake s fun s =>
    endAccess (isKind .mqEntry) 0 ok 64 (fun _ ok s => mqEntryEnd ok data.toList s) s)

/-- A write to host memory by the management unit has failed (R169, R171, R173): the controller halts
with MCQ_WRITE, and in HALTED nothing more is written to the MCQ. -/
def mgmtWriteFails (s : State) : State :=
  if s.link.ctrl = .running then enterHalted .mcqWrite s
  else s.modMgmt fun m => { m with muted := true }

/-- The end of an MQ status word write (R166, R169): at the start the MCQ status word follows it;
otherwise the command taken is executed. -/
def mqStatusEnd (atStart ok : Bool) (s : State) : State :=
  if !ok then mgmtWriteFails s
  else if atStart then if s.mcqOpen then writeMcqStatus true s else s
  else if s.commandAt .mqStatus then setCommandPhase .execute s
  else s

/-- Whether an access is an MQ status word write; an MCQ status word write. -/
def isMqStatus (a : Access) : Bool :=
  match a.kind with
  | .mqStatus _ => true
  | _ => false
def isMcqStatus (a : Access) : Bool :=
  match a.kind with
  | .mcqStatus _ => true
  | _ => false

/-- Whether a status word write of a management ring is the one of the start (R166). -/
def Access.atStart (a : Access) : Bool :=
  match a.kind with
  | .mqStatus b => b
  | .mcqStatus b => b
  | _ => false

/-- MQ_STATUS_WORD_WRITE_END (R169): the oldest MQ status word write in flight ends. DESIGN CHOICE (log
entry 50). -/
def execMqStatusWordWriteEnd (ok : Bool) (s : State) : Host.Outcome State Fault Refusal :=
  .next (awake s fun s => endAccess isMqStatus 0 ok 0 (fun a ok s => mqStatusEnd a.atStart ok s) s)

/-! ### The management completion queue (R171, R184) -/

/-- The free space of the MCQ (R168). -/
def State.mcqFree (s : State) : Nat := freeSpace s.mgmt.mcqProduced s.mgmt.mcqConsumed s.mgmt.mcqSize

/-- Whether an MCQ write sequence can begin (R171): none is in progress, the MCQ has room, and the
controller allows it. -/
def State.mcqReady (s : State) : Bool :=
  s.mgmt.sequence == .idle && decide (0 < s.mcqFree) && s.mcqOpen

/-- Step 1 of an MCQ write sequence: the record is written to its slot (R171). -/
def writeMcqRecord (record : List Byte) (completion : Bool) (s : State) : State :=
  let m := s.mgmt
  issue .mcqRecord (.write [(ringAddr m.mcqBase m.mcqSize m.mcqProduced 32, record)]) false
    (s.modMgmt fun m => { m with sequence := .record completion })

/-- A completion due is written (R171). -/
def beginCompletion (s : State) : State :=
  match s.mgmt.due with
  | some record => if s.mcqReady then writeMcqRecord record true s else s
  | none => s

/-- MCQ_WRITE_SEQUENCE (R171). -/
def execMcqWriteSequence (s : State) : Host.Outcome State Fault Refusal :=
  .next (awake s beginCompletion)

/-- The latches that were set earliest, together with any set in the same microsecond (R184). -/
def earliest (l : List SetLatch) : List SetLatch :=
  match l with
  | [] => []
  | x :: _ => l.takeWhile fun y => y.time == x.time

/-- An event record is begun for latch `l`, one of those set earliest; the latch is cleared (R184). -/
def beginEvent (l : Latch) (s : State) : State :=
  match (earliest s.mgmt.latches).find? fun x => x.latch == l with
  | some x =>
    if s.mgmt.due.isNone && s.mcqReady then
      writeMcqRecord (eventRecordOf x) false
        (s.modMgmt fun m => { m with latches := m.latches.filter fun y => y.latch != l })
    else s
  | none => s

/-- EVENT_RECORD (R184). -/
def execEventRecord (l : Latch) (s : State) : Host.Outcome State Fault Refusal :=
  .next (awake s (beginEvent l))

/-- The MCQ record write ends (R171 step 2): the produced count rises and the status word is written. A
unit that writes nothing more writes no status word (R173). -/
def mcqRecordEnd (ok : Bool) (s : State) : State :=
  match s.mgmt.sequence with
  | .record completion =>
    if ok then
      let s := s.modMgmt fun m =>
        { m with
          mcqProduced := m.mcqProduced + 1, due := if completion then none else m.due,
          sequence := .idle }
      if s.sequenceGoesOn then writeMcqStatus false (s.modMgmt fun m => { m with sequence := .status })
      else s
    else
      mgmtWriteFails (s.modMgmt fun m => { m with sequence := .idle })
  | _ => s

/-- MCQ_RECORD_WRITE_END (R171). -/
def execMcqRecordWriteEnd (ok : Bool) (s : State) : Host.Outcome State Fault Refusal :=
  .next (awake s fun s => endAccess (isKind .mcqRecord) 0 ok 0 (fun _ ok s => mcqRecordEnd ok s) s)

/-- The MCQ status word write ends (R171 step 3): ISR bit 0 is set, but not for the write of the start
(R166). -/
def mcqStatusEnd (atStart ok : Bool) (s : State) : State :=
  let s := if atStart then s else s.modMgmt fun m => { m with sequence := .idle }
  if !ok then mgmtWriteFails s else if atStart then s else raiseIsr 0 s

/-- MCQ_STATUS_WORD_WRITE_END (R171): the oldest MCQ status word write in flight ends. DESIGN CHOICE (log
entry 50). -/
def execMcqStatusWordWriteEnd (ok : Bool) (s : State) : Host.Outcome State Fault Refusal :=
  .next (awake s fun s => endAccess isMcqStatus 0 ok 0 (fun a ok s => mcqStatusEnd a.atStart ok s) s)

end Sys2Proof.Machine
end

