-- ==== Sys2Proof/Machine/Receive.lean ====
section
/-! DEFINITION. The receive unit's steps (chapter 8): the posted notify, the fetch of a buffer, and the
ring's status word. -/

namespace Sys2Proof.Machine

/-- A posted notify for the receive ring (R161). -/
def takeRxNotify (count : Half) (s : State) : State :=
  let s' := { s with rx := { s.rx with posted := count } }
  match s.rx.state with
  | .absent => setStray s
  | .running =>
    if postedError count (claimed s.rx.taken s.rx.fetch.isSome) s.rx.size then rxEnterError .count s'
    else decideAll s'
  | .error => s'

/-- Whether a port's buffer at hand is WANTED; whether it is FETCHING (R162). -/
def AtHand.isWanted : AtHand → Bool
  | .wanted => true
  | _ => false
def AtHand.isFetching : AtHand → Bool
  | .fetching => true
  | _ => false

/-- The buffer at hand of a port becomes `x`. -/
def setAtHand (p : PortId) (x : AtHand) (s : State) : State :=
  s.modTarget p fun T => { T with atHand := x }

/-- The receive unit starts a fetch for the next port WANTED (R162). The record of the buffer is for
the receive CQ the port names now (R164); a port that wants a buffer names one (R177). -/
def startFetch (s : State) : State :=
  if s.rx.state = .running && s.rx.fetch.isNone && s.rx.waiting.isNone &&
      ringOffers s.rx.posted s.rx.taken s.rx.size then
    match (after s.rx.lastServed).find? fun p => (s.port p).tgt.atHand.isWanted with
    | some p =>
      let s := setAtHand p .fetching s
      let s := { s with
        rx := { s.rx with fetch := some (p, (s.port p).cfg.rxCq.getD 0), lastServed := p } }
      issue .rxEntry (.read [(ringAddr s.rx.base s.rx.size s.rx.taken 16, 16)]) false s
    | none => s
  else s

/-- RECEIVE_FETCH_START (R162). -/
def execReceiveFetchStart (s : State) : Host.Outcome State Fault Refusal :=
  .next (whenRunning s startFetch)

/-- A port whose fetch brought no buffer is WANTED again (R163). -/
def wantAgain (p : PortId) (s : State) : State :=
  if (s.port p).tgt.atHand.isFetching then setAtHand p .wanted s else s

/-- A buffer is delivered to the port served, or given back by a port that is no longer FETCHING
(R163, R164). -/
def deliver (p : PortId) (b : RxBuffer) (s : State) : State :=
  if (s.port p).tgt.atHand.isFetching then setAtHand p (.present b) s else giveBack p b s

/-- A ring entry of bad capacity (R163): its record is offered, and waits while it is refused. -/
def badCapacity (p : PortId) (b : RxBuffer) (s : State) : State :=
  let r : ReceiveRecord := { record := badCapacityRecord p b s.timebase, cq := b.cq }
  offerReceive { s with rx := { s.rx with waiting := some r } }

/-- The end of a fetch (R163). Mailbox decisions that wait are taken again (R155). -/
def fetchEnd (ok : Bool) (data : List Byte) (s : State) : State :=
  match s.rx.fetch with
  | none => s
  | some (p, cq) =>
    let s := { s with rx := { s.rx with fetch := none } }
    if ok then
      let b := parseRxEntry data cq
      let s := writeRxStatus false { s with rx := { s.rx with taken := s.rx.taken + 1 } }
      decideAll (if capOk b.cap then deliver p b s else badCapacity p b (wantAgain p s))
    else decideAll (rxEnterError .entryRead (wantAgain p s))

/-- RECEIVE_FETCH_END (R163). -/
def execReceiveFetchEnd (ok : Bool) (data : Vector Byte 16) (s : State) :
    Host.Outcome State Fault Refusal :=
  .next (awake s fun s =>
    endAccess (isKind .rxEntry) 0 ok 16 (fun _ ok s => fetchEnd ok data.toList s) s)

/-- The end of a status word write of the ring (R160): a failure acts by the ring's state, and one of the
further write for a change that a failed write caused not at all. -/
def rxStatusEnd (a : Access) (ok : Bool) (s : State) : State :=
  statusWordEnded a (if ok || a.further then s else rxEnterError .statusWrite s)

/-- RECEIVE_STATUS_WORD_WRITE_END (R160). -/
def execReceiveStatusWordWriteEnd (k : Nat) (ok : Bool) (s : State) :
    Host.Outcome State Fault Refusal :=
  .next (awake s fun s => endAccess (isKind .rxStatus) k ok 0 (fun a ok s => rxStatusEnd a ok s) s)

end Sys2Proof.Machine
end

