-- ==== Sys2Proof/Machine/Scheduler.lean ====
section
/-! DEFINITION. The port schedulers' steps (chapter 3): dispatch, the end of the staging read, the retry
gap, deadlines, and the end of the draining write. -/

namespace Sys2Proof.Machine

/-- Act on the in-service transaction of a port, if there is one. -/
def withService (p : PortId) (f : SlotId → Txn → State → State) (s : State) : State :=
  match (s.port p).inService with
  | some k =>
    match s.txn k with
    | some t => f k t s
    | none => s
  | none => s

/-- What dispatch does to the first transaction of the list (R48, R49, R124). -/
def dispatchHead (p : PortId) (k : SlotId) (t : Txn) (s : State) : State :=
  let s := s.modPort p fun P =>
    { P with inService := some k, pendingResult := none, outbound := [], inbound := [] }
  match t.mark with
  | some r => fixOutside p k r 0 s
  | none =>
    if (s.port p).state = .off || (s.port p).state = .faulted then fixOutside p k .portOff 0 s
    else
      match t.trig with
      | some d =>
        (s.modPort p fun P => { P with outbound := writeAreaBytes t.req d.writeData }).modTxn k
          fun t => { t with state := .ready }
      | none =>
        if t.req.writeBytes = 0 then s.modTxn k fun t => { t with state := .ready }
        else
          issue (.staging p) (.read (stagingRanges t.req)) false
            (s.modTxn k fun t => { t with state := .staging })

/-- Dispatch on a port (R48): nothing in service, no disable pending, the controller RUNNING. -/
def dispatch (p : PortId) (s : State) : State :=
  if (s.port p).inService.isNone && !(s.port p).disablePending then
    match (s.port p).list with
    | k :: _ =>
      match s.txn k with
      | some t => dispatchHead p k t s
      | none => s
    | [] => s
  else s

/-- DISPATCH (R48). -/
def execDispatch (p : PortId) (s : State) : Host.Outcome State Fault Refusal :=
  .next (whenRunning s (dispatch p))

/-- The end of a staging read (R49, R50). -/
def stagingEnd (p : PortId) (ok : Bool) (data : List Byte) (s : State) : State :=
  withService p (fun k t s =>
    if t.state = .staging then
      match (s.port p).pendingResult with
      | some (r, detail) => fixOutside p k r detail s
      | none =>
        if ok then
          (s.modPort p fun P => { P with outbound := data }).modTxn k
            fun t => { t with state := .ready }
        else fixOutside p k .hostFault detailStaging s
    else s) s

/-- STAGING_READ_END (R50). -/
def execStagingReadEnd (p : PortId) (ok : Bool) (data : List Byte) (s : State) :
    Host.Outcome State Fault Refusal :=
  .next (awake s fun s =>
    endAccess (isKind (.staging p)) 0 ok data.length (fun _ ok s => stagingEnd p ok data s) s)

/-- The retry gap of the transaction in RETRY_WAIT ends (R52). -/
def gapExpiry (p : PortId) (s : State) : State :=
  withService p (fun k t s =>
    if t.state = .retryWait && decide (t.req.retryGap.toNat * 100 ≤ s.since t.gapFrom) then
      s.modTxn k fun t => { t with state := .ready }
    else s) s

/-- RETRY_GAP_EXPIRY (R52): the gap runs on while the controller is HALTED (R194). -/
def execRetryGapExpiry (p : PortId) (s : State) : Host.Outcome State Fault Refusal :=
  .next (whenLive s (gapExpiry p))

/-- Whether the deadline of a transaction has passed and is still watched (R13, R57). -/
def State.deadlinePassed (s : State) (t : Txn) : Bool :=
  t.req.deadline != 0 && t.mark.isNone && decide (t.req.deadline.toNat * 1000 ≤ s.since t.takenAt)

/-- What an expired deadline does to a transaction (R57). -/
def deadlineEffect (k : SlotId) (t : Txn) (s : State) : State :=
  match t.state with
  | .held | .waiting => markTxn k .deadline s
  | .staging => setPendingResult t.port .deadline 0 s
  | .ready | .retryWait => fixOutside t.port k .deadline 0 s
  | .active => expireActive t.port s
  | _ => s

/-- The deadline of the transaction in slot `k` expires (R57). -/
def deadlineExpiry (k : SlotId) (s : State) : State :=
  match s.txn k with
  | some t => if s.deadlinePassed t then deadlineEffect k t s else s
  | none => s

/-- DEADLINE_EXPIRY (R57): deadlines are not watched in HALTED (R194). -/
def execDeadlineExpiry (k : SlotId) (s : State) : Host.Outcome State Fault Refusal :=
  .next (whenRunning s (deadlineExpiry k))

/-- The end of a draining write: a failure replaces the result (R53). -/
def drainingEnd (p : PortId) (ok : Bool) (s : State) : State :=
  withService p (fun k t s =>
    if t.state = .draining then
      serviceEnd p k
        (if ok then s
         else s.modTxn k fun t => { t with result := .hostFault, detail := detailDraining })
    else s) s

/-- DRAINING_WRITE_END (R53). -/
def execDrainingWriteEnd (p : PortId) (ok : Bool) (s : State) : Host.Outcome State Fault Refusal :=
  .next (awake s fun s =>
    endAccess (isKind (.draining p)) 0 ok 0 (fun _ ok s => drainingEnd p ok s) s)

end Sys2Proof.Machine
end

