-- ==== Sys2Proof/Machine/Master.lean ====
section
/-! DEFINITION. The master engine's steps (chapter 4), one byte or one bus condition each: beginning an
attempt, START and repeated START, address, data, count and check bytes, STOP, opening a segment
after BETWEEN, and arbitration loss. The bits of a byte and their timing are inside a step (log
entry 11). -/

namespace Sys2Proof.Machine

/-- Act on the attempt in progress of a port: the engine's context and its transaction. -/
def withAttempt (p : PortId) (f : Engine → SlotId → Txn → State → State) (s : State) : State :=
  if (s.port p).eng.phase = .none then s
  else withService p (fun k t s => f (s.port p).eng k t s) s

/-- Change the engine's context. -/
def modEng (p : PortId) (f : Engine → Engine) (s : State) : State :=
  s.modPort p fun P => { P with eng := f P.eng }

/-- What the engine drives between steps: in OPENING before a START, in BETWEEN and with no attempt it
drives nothing; otherwise it holds SCL low until its next pulse, and SDA low while it sends a 0 or
makes a STOP (R66 to R70, R90). -/
def driveLines (p : PortId) (sda : Bool) (s : State) : State :=
  s.modPort p fun P => { P with sclDriven := true, sdaDriven := sda }

/-- Whether the engine is to stop at the next byte boundary: a stop request was taken, or the
controller stops or halts (R82, R85). -/
def Engine.stops (E : Engine) : Bool := E.quiet || E.stopReq.isSome

/-- The outcome decided now, unless one has been decided or the attempt ends without one (R79, R83,
R85). -/
def Engine.settle (E : Engine) (out : AttemptOutcome) : Engine :=
  if E.quiet || E.outcome.isSome then E else { E with outcome := some out }

/-- The running check value after a byte, kept while CHK is set (R16). -/
def Engine.advance (E : Engine) (chk : Bool) (b : Byte) : Engine :=
  if chk then { E with crc := crcByte E.crc b } else E

/-- The engine goes on to make a STOP (R69). -/
def Engine.close (E : Engine) : Engine := { E with phase := .closing }

/-- The data phase of a segment is over (R76, R77): with JOIN a repeated START follows, otherwise a
STOP. -/
def Engine.closeSegment (E : Engine) (g : Segment) : Engine :=
  if g.join then { E with phase := .opening, restart := true } else E.close

/-- The last byte of a segment has passed: the check byte follows at the end of the last segment with
CHK set, and the segment is closed otherwise (R73, R74, R75, R76). -/
def Engine.endSegment (E : Engine) (r : Request) : Engine :=
  if r.chk && r.isLast E.segment then { E with phase := .checking }
  else E.closeSegment (r.seg E.segment)

/-! ### Beginning, START, repeated START -/

/-- An attempt begins (R64): the port enters MASTER, the transaction ACTIVE, and both attempts counters
rise. -/
def beginAttempt (p : PortId) (s : State) : State :=
  withService p (fun k t s =>
    if t.state = .ready && (s.port p).state == .idle && (s.port p).busFree &&
        (s.port p).eng.phase == .none then
      (s.modPort p fun P =>
        { P with
          state := .master, inbound := [], eng := { Engine.reset with phase := .opening },
          clockLowFrom := s.timebase, stuckDataFrom := s.timebase, tied := [],
          stats := { P.stats with attempts := P.stats.attempts + 1 } }).modTxn k
        fun t => { t with state := .active, attempts := t.attempts + 1 }
    else s) s

/-- ATTEMPT_BEGIN (R64). -/
def execAttemptBegin (p : PortId) (s : State) : Host.Outcome State Fault Refusal :=
  .next (whenRunning s (beginAttempt p))

/-- The engine makes its START (R67), or loses at START on a line found low; another device's START comes
as BUS_START_SEEN (log entry 20). The start time is taken in the first attempt (R64). -/
def makeStart (p : PortId) (won : Bool) (s : State) : State :=
  withAttempt p (fun E k _ s =>
    if E.phase = .opening && !E.restart then
      if won then
        touch p (driveLines p true
          (((modEng p (fun E => { E with phase := .addressing }) s).modPort p
              fun P => { P with busFree := false }).modTxn k
            fun t => { t with started := some (t.started.getD s.timebase) }))
      else loseArbitration p .start false s
    else s) s

/-- MASTER_START (R67). -/
def execMasterStart (p : PortId) (won : Bool) (s : State) : Host.Outcome State Fault Refusal :=
  .next (awake s (makeStart p won))

/-- The engine makes its repeated START for the next segment, a START condition for the monitor (R88), or
loses at RESTART on a line found low (R68); another device's START comes as BUS_START_SEEN (log entry 20). -/
def makeRestart (p : PortId) (won : Bool) (s : State) : State :=
  withAttempt p (fun E _ _ s =>
    if E.phase = .opening && E.restart then
      if won then
        touch p (driveLines p true
          ((modEng p (fun E =>
            { E with
              phase := .addressing, segment := E.segment + 1, bytePos := 0, countRecv := none,
              restart := false }) s).modPort p fun P => { P with busFree := false }))
      else loseArbitration p .restart false s
    else s) s

/-- REPEATED_START (R68). -/
def execRepeatedStart (p : PortId) (won : Bool) (s : State) : Host.Outcome State Fault Refusal :=
  .next (awake s (makeRestart p won))

/-- In BETWEEN, with the monitor FREE and the port IDLE, the next segment opens (R77). -/
def openSegment (p : PortId) (s : State) : State :=
  withAttempt p (fun E _ _ s =>
    if E.phase = .between && (s.port p).state == .idle && (s.port p).busFree then
      (modEng p (fun E =>
        { E with
          phase := .opening, segment := E.segment + 1, bytePos := 0, countRecv := none,
          restart := false }) s).modPort p fun P =>
        { P with
          state := .master, clockLowFrom := s.timebase, stuckDataFrom := s.timebase, tied := [] }
    else s) s

/-- SEGMENT_OPEN (R77). -/
def execSegmentOpen (p : PortId) (s : State) : Host.Outcome State Fault Refusal :=
  .next (whenRunning s (openSegment p))

/-! ### Bytes -/

/-- The address byte of a segment: its 7-bit address, then the direction bit (R72). -/
def Segment.addressByte (g : Segment) : Byte := g.addr ++ (if g.writes then 0#1 else 1#1)

/-- The engine after an acknowledged address (R72): the data phase follows; a WRITE of length 0 has
none. At a byte-boundary stop a WRITE is closed, and a read receives the byte in hand (R82). -/
def Engine.addressed (E : Engine) (r : Request) : Engine :=
  let g := r.seg E.segment
  if g.writes then
    if E.stops then E.close
    else if g.length = 0 then E.closeSegment g
    else { E with phase := .sending }
  else { E with phase := .receiving }

/-- The outcome of a refused address (R12, R72). -/
def nackOutcome (t : Txn) : AttemptOutcome :=
  if t.nackUsed < t.req.nackRetries.toNat then .retry else .result .addrNack 0

/-- The address byte is sent and its acknowledge sampled (R70, R72). -/
def addressByteSent (p : PortId) (ack : Bool) (s : State) : State :=
  withAttempt p (fun E k t s =>
    if E.phase = .addressing then
      let b := (t.req.seg E.segment).addressByte
      let s := touch p (s.modPort p fun P => { P with lastSent := some b })
      let E := E.advance t.req.chk b
      if ack then driveLines p false (modEng p (fun _ => E.addressed t.req) s)
      else
        let s := s.modStats p fun c => { c with addrNacks := c.addrNacks + 1 }
        let s := driveLines p false (modEng p (fun _ => (E.settle (nackOutcome t)).close) s)
        if !E.quiet && E.outcome.isNone && nackOutcome t == .retry then
          s.modTxn k fun t => { t with nackUsed := t.nackUsed + 1 }
        else s
    else s) s

/-- MASTER_ADDRESS_BYTE (R72). -/
def execMasterAddressByte (p : PortId) (ack : Bool) (s : State) : Host.Outcome State Fault Refusal :=
  .next (awake s (addressByteSent p ack))

/-- The engine after a WRITE data byte and its acknowledge (R73, R83). -/
def Engine.sent (E : Engine) (r : Request) (ack : Bool) : Engine :=
  let g := r.seg E.segment
  let E' :=
    if ack then { E with writeCount := E.writeCount + 1, bytePos := E.bytePos + 1 }
    else if g.ignoreNack && !E.stops then { E with bytePos := E.bytePos + 1 }
    else E
  if E.stops then E'.close
  else if !ack && !g.ignoreNack then (E'.settle (.result .dataNack 0)).close
  else if E'.bytePos < g.length.toNat then E'
  else E'.endSegment r

/-- A WRITE data byte is sent from outbound staging (R70, R73). -/
def dataByteSent (p : PortId) (ack : Bool) (s : State) : State :=
  withAttempt p (fun E _ t s =>
    if E.phase = .sending && decide (E.bytePos < (t.req.seg E.segment).length.toNat) then
      let b := byteAt (s.port p).outbound (outboundStart t.req E.segment + E.bytePos)
      let s := touch p (s.modPort p fun P => { P with lastSent := some b })
      let s := if ack then s else s.modStats p fun c => { c with dataNacks := c.dataNacks + 1 }
      driveLines p false (modEng p (fun _ => (E.advance t.req.chk b).sent t.req ack) s)
    else s) s

/-- MASTER_DATA_BYTE_SENT (R73). -/
def execMasterDataByteSent (p : PortId) (ack : Bool) (s : State) : Host.Outcome State Fault Refusal :=
  .next (awake s (dataByteSent p ack))

/-- The bytes a reading segment brings: its length, or the count byte and its count (R74, R75). -/
def Engine.expects (E : Engine) (g : Segment) : Nat :=
  match E.countRecv with
  | some n => 1 + n.toNat
  | none => g.length.toNat

/-- A byte enters inbound staging, counted and marked with its segment (R74, R75). -/
def storeByte (p : PortId) (segment : Nat) (b : Byte) (s : State) : State :=
  s.modPort p fun P => { P with inbound := P.inbound ++ [(segment, b)] }

/-- The engine with a received byte counted (R74, R75). -/
def Engine.received (E : Engine) (chk : Bool) (b : Byte) : Engine :=
  let E := E.advance chk b
  { E with readCount := E.readCount + 1, bytePos := E.bytePos + 1 }

/-- Whether the engine, with the byte just received counted, acknowledges it (R6, R74): not the
segment's last byte unless the check byte follows, and none at a byte-boundary stop (R82). -/
def Engine.acknowledges (E : Engine) (r : Request) : Bool :=
  !E.stops &&
    (decide (E.bytePos < E.expects (r.seg E.segment)) || (r.chk && r.isLast E.segment))

/-- The engine after a READ data byte (R74, R82). -/
def Engine.afterReceived (E : Engine) (r : Request) : Engine :=
  if E.stops then E.close
  else if E.bytePos < E.expects (r.seg E.segment) then E
  else E.endSegment r

/-- Whether the next byte of a segment is its count byte (R75). -/
def Engine.awaitsCount (E : Engine) (g : Segment) : Bool :=
  g.kind == .readCounted && E.countRecv.isNone

/-- A READ data byte is received in full (R71, R74). -/
def byteReceived (p : PortId) (b : Byte) (s : State) : State :=
  withAttempt p (fun E _ t s =>
    if E.phase = .receiving && !E.awaitsCount (t.req.seg E.segment) then
      let E' := E.received t.req.chk b
      driveLines p false (giveAck p (E'.acknowledges t.req)
        (modEng p (fun _ => E'.afterReceived t.req) (storeByte p E.segment b (touch p s))))
    else s) s

/-- MASTER_BYTE_RECEIVED (R74). -/
def execMasterByteReceived (p : PortId) (byte : Byte) (s : State) : Host.Outcome State Fault Refusal :=
  .next (awake s (byteReceived p byte))

/-- Whether a count lies above the segment's capacity (R14, R75). -/
def overlength (g : Segment) (n : Byte) : Bool := decide (g.length.toNat - 1 < n.toNat)

/-- Whether the engine acknowledges a count byte (R14, R75). -/
def Engine.acknowledgesCount (E : Engine) (r : Request) (n : Byte) : Bool :=
  !E.stops && !overlength (r.seg E.segment) n &&
    (n != 0 || (r.chk && r.isLast E.segment))

/-- The engine after a count byte (R75, R83). -/
def Engine.afterCount (E : Engine) (r : Request) (n : Byte) : Engine :=
  if E.stops then E.close
  else if overlength (r.seg E.segment) n then (E.settle (.result .overlength 0)).close
  else if n = 0 then E.endSegment r
  else E

/-- The count byte of a READ_COUNTED segment is received (R14, R75). -/
def countReceived (p : PortId) (n : Byte) (s : State) : State :=
  withAttempt p (fun E _ t s =>
    if E.phase = .receiving && E.awaitsCount (t.req.seg E.segment) then
      let E' := { E.received t.req.chk n with countRecv := some n }
      driveLines p false (giveAck p (E'.acknowledgesCount t.req n)
        (modEng p (fun _ => E'.afterCount t.req n) (storeByte p E.segment n (touch p s))))
    else s) s

/-- COUNT_BYTE (R75). -/
def execCountByte (p : PortId) (n : Byte) (s : State) : Host.Outcome State Fault Refusal :=
  .next (awake s (countReceived p n))

/-- The check byte is sent after a last WRITE segment, or received and refused after a last reading
one (R17, R18, R76). One received at a byte-boundary stop is not compared (R82). -/
def checkByteDone (p : PortId) (ack : Bool) (byte : Byte) (s : State) : State :=
  withAttempt p (fun E _ t s =>
    if E.phase = .checking then
      let s := touch p s
      if (t.req.seg E.segment).writes then
        let s := s.modPort p fun P => { P with lastSent := some E.crc }
        let s := if ack then s else s.modStats p fun c => { c with dataNacks := c.dataNacks + 1 }
        driveLines p false (modEng p
          (fun E => (E.settle (.result (if ack then .ok else .dataNack) 0)).close) s)
      else
        driveLines p false (giveAck p false (modEng p
          (fun E => (E.settle (.result (if byte = E.crc then .ok else .checkFail) 0)).close) s))
    else s) s

/-- CHECK_BYTE (R76). -/
def execCheckByte (p : PortId) (ack : Bool) (byte : Byte) (s : State) :
    Host.Outcome State Fault Refusal :=
  .next (awake s (checkByteDone p ack byte))

/-! ### STOP -/

/-- Whether the engine may make its STOP now: in CLOSING; or, at a byte-boundary stop, after an
acknowledge pulse and before the first bit of the next byte it sends (R69, R82). -/
def Engine.mayStop (E : Engine) (r : Request) : Bool :=
  E.phase == .closing ||
    (E.stops && (E.phase == .sending || (E.phase == .checking && (r.seg E.segment).writes)))

/-- The engine's STOP is complete (R69, R77, R81): the port enters IDLE; the attempt ends with its
outcome, with OK when nothing was decided and the segment is the last, or waits in BETWEEN. An
attempt of a stop or halt ends without an outcome (R85). A timeout that expires together with the STOP
may be taken after it (R96). -/
def stopComplete (p : PortId) (s : State) : State :=
  withAttempt p (fun E _ t s =>
    if E.mayStop t.req then
      let s := enterIdle p (releaseLines p (touch p (tieTimeouts p s)))
      if E.quiet then endQuiet p s
      else
        match E.outcome with
        | some out => finishAttempt p out s.timebase s
        | none =>
          if t.req.isLast E.segment then finishAttempt p (.result .ok 0) s.timebase s
          else modEng p (fun E => { E with phase := .between, closedAt := s.timebase }) s
    else s) s

/-- MASTER_STOP_COMPLETE (R77). -/
def execMasterStopComplete (p : PortId) (s : State) : Host.Outcome State Fault Refusal :=
  .next (awake s (stopComplete p))

/-! ### Arbitration loss -/

/-- Whether the outcome decided is one a received byte decides, so that the refusal of that byte follows
the decision (R75, R76, R79). -/
def Engine.refusing (E : Engine) (r : Request) : Bool :=
  !(r.seg E.segment).writes &&
    match E.outcome with
    | some (.result .overlength _) => true
    | some (.result .ok _) => true
    | some (.result .checkFail _) => true
    | _ => false

/-- Whether the engine can lose at a place in its phase (R67 to R71, R78, R79, R83): DATA also at the
refusal that follows a decision; a loss at any other refusal comes in place of its byte. STOP wherever
the engine may make one. -/
def Engine.canLose (E : Engine) (r : Request) : LossPlace → Bool
  | .start => E.phase == .opening && !E.restart
  | .restart => E.phase == .opening && E.restart
  | .address => E.phase == .addressing
  | .data =>
    E.phase == .sending || E.phase == .receiving || E.phase == .checking ||
      (E.phase == .closing && E.refusing r)
  | .stop => E.mayStop r

/-- The count byte of an OVERLENGTH segment, in whose refusal a loss is seen, is not counted, and leaves
inbound staging (R78). DEDUCED (log entry 24). -/
def dropRefused (p : PortId) (s : State) : State :=
  match (s.port p).eng.outcome with
  | some (.result .overlength _) =>
    s.modPort p fun P =>
      { P with
        inbound := P.inbound.dropLast, eng := { P.eng with readCount := P.eng.readCount - 1 } }
  | _ => s

/-- The engine loses arbitration on a bit, a refusal or a line found low (R78); a byte lost at ADDRESS is
handed, as the winner sent it, to the target unit (R148). -/
def arbitrationLost (p : PortId) (place : LossPlace) (winner : Byte) (s : State) : State :=
  withAttempt p (fun E _ t s =>
    if E.canLose t.req place then
      let s := loseArbitration p place false (if place = .data then dropRefused p s else s)
      if place == .address && (s.port p).state == .observing && s.judges p then judge p winner s
      else s
    else s) s

/-- ARBITRATION_LOSS (R78). -/
def execArbitrationLoss (p : PortId) (place : LossPlace) (winner : Byte) (s : State) :
    Host.Outcome State Fault Refusal :=
  .next (awake s (arbitrationLost p place winner))

end Sys2Proof.Machine
end

