-- ==== Sys2Proof/Machine/Supervision.lean ====
section
/-! DEFINITION. Bus supervision (chapter 5): what the bus monitor sees, the timeouts, and the recovery
procedure. A limit is checked against the timebase: an expiry before its limit does not occur. -/

namespace Sys2Proof.Machine

/-! ### The bus monitor (R88, R89, R91) -/

/-- The monitor judges (R88). -/
def setVerdict (p : PortId) (free : Bool) (s : State) : State :=
  s.modPort p fun P => { P with busFree := free }

/-- Another device's START ends a wait of the recovery procedure or of a restart (R98, R101). -/
def startEndsWait (p : PortId) (s : State) : State :=
  match (s.port p).recovery with
  | .finalWait _ => recoverySucceeds p false s
  | .restartWait _ => leaveRecovery p false s
  | _ => s

/-- A START seen in OBSERVING or IDLE: the port observes the transfer, whose address byte follows. A
transfer that was refused has ended (R149), and a port told to disable enters OFF (R94). -/
def observeStart (p : PortId) (s : State) : State :=
  let s := s.modPort p fun P =>
    { P with state := .observing, awaitAddr := true, tgt := { P.tgt with transfer := .none } }
  if (s.port p).tgt.disableTold then enterOff p s else s

/-- Whether the master engine takes the bits of a byte from the lines: a READ data byte, a count byte, or
a check byte it receives (R71). -/
def State.takesBits (s : State) (p : PortId) : Bool :=
  let E := (s.port p).eng
  match (s.port p).inService with
  | some k =>
    match s.txn k with
    | some t =>
      E.phase == .receiving || (E.phase == .checking && !(t.req.seg E.segment).writes)
    | none => false
  | none => false

/-- The place at which another device's START makes the master engine lose (R67, R68, R71). One in a byte
the engine sends, or in its STOP, comes as ARBITRATION_LOSS (log entry 20). -/
def State.lossAtStart (s : State) (p : PortId) : Option LossPlace :=
  let E := (s.port p).eng
  if E.phase = .opening then some (if E.restart then .restart else .start)
  else if s.takesBits p then some .data
  else none

/-- A START condition made by another device (R88): the verdict is BUSY, and the port state moves as
R91 gives; in OPENING, and within a byte it receives, the engine has lost (R67, R68, R71). -/
def startSeen (p : PortId) (s : State) : State :=
  if (s.port p).state = .off then s
  else
    let s := setVerdict p false s
    match (s.port p).state with
    | .master =>
      match s.lossAtStart p with
      | some place => loseArbitration p place true s
      | none => touch p s
    | .idle | .observing => let s := touch p s; if s.link.ctrl = .running then observeStart p s else s
    | .recovering => let s := touch p s; if s.link.ctrl = .running then startEndsWait p s else s
    | _ => touch p s

/-- BUS_START_SEEN (R88). -/
def execBusStartSeen (p : PortId) (s : State) : Host.Outcome State Fault Refusal :=
  .next (awake s (startSeen p))

/-- The transfer the port was observing is over (R91): the monitor reports FREE and the port enters
IDLE. -/
def observeEnd (p : PortId) (s : State) : State :=
  enterIdle p (s.modTarget p fun T => { T with transfer := .none })

/-- A STOP condition made by another device (R88): the verdict is FREE, but not in the enabling wait. One
within a byte the master engine receives is a loss at DATA (R71). -/
def stopSeen (p : PortId) (s : State) : State :=
  if (s.port p).state = .off then s
  else
    if (s.port p).enabling then touch p s
    else
      let s := setVerdict p true s
      let s :=
        if (s.port p).state = .master && s.takesBits p then loseArbitration p .data false s
        else touch p s
      if (s.port p).state = .observing && s.link.ctrl == .running then observeEnd p s else s

/-- BUS_STOP_SEEN (R88). -/
def execBusStopSeen (p : PortId) (s : State) : Host.Outcome State Fault Refusal :=
  .next (awake s (stopSeen p))

/-- Whether both lines can have stayed high for the idle time (R88). -/
def State.idleTimePassed (s : State) (p : PortId) : Bool :=
  decide ((s.port p).cfg.idleTime.toNat * 10 ≤ s.since (s.port p).idleFrom)

/-- The idle timer reaches the idle time (R88). -/
def idleTimeExpiry (p : PortId) (s : State) : State :=
  if (s.port p).state != .off && s.idleTimePassed p then
    let s := setVerdict p true s
    if (s.port p).state = .observing && s.link.ctrl == .running then observeEnd p s else s
  else s

/-- IDLE_TIME_EXPIRY (R88). -/
def execIdleTimeExpiry (p : PortId) (s : State) : Host.Outcome State Fault Refusal :=
  .next (awake s (idleTimeExpiry p))

/-! ### Timeouts (R95, R96) -/

/-- Whether a timer that has run since a moment expires: it runs and has reached the bus timeout, or had
reached it when the end of an attempt set it back at this moment (R95, R96). -/
def State.expires (s : State) (p : PortId) (reason : FaultReason) (from_ : Word) : Bool :=
  s.timersRun p && (s.timeoutPassed p from_ || (s.port p).tied.contains reason)

/-- The clock-low timer expires (R96). -/
def clockLowExpiry (p : PortId) (s : State) : State :=
  if s.expires p .clockLow (s.port p).clockLowFrom then
    timeoutEffects p .clockLow detailClockLow
      (s.modStats p fun c => { c with clockLow := c.clockLow + 1 })
  else s

/-- CLOCK_LOW_TIMEOUT (R96). -/
def execClockLowTimeout (p : PortId) (s : State) : Host.Outcome State Fault Refusal :=
  .next (awake s (clockLowExpiry p))

/-- The stuck-data timer expires (R96). -/
def stuckDataExpiry (p : PortId) (s : State) : State :=
  if s.expires p .dataLow (s.port p).stuckDataFrom then
    timeoutEffects p .dataLow detailDataLow
      (s.modStats p fun c => { c with stuckData := c.stuckData + 1 })
  else s

/-- STUCK_DATA_TIMEOUT (R96). -/
def execStuckDataTimeout (p : PortId) (s : State) : Host.Outcome State Fault Refusal :=
  .next (awake s (stuckDataExpiry p))

/-! ### Recovery (R97 to R99) and restart (R101) -/

/-- SCL is seen high (R97 step 3): with SDA high the engine goes to the STOP, with SDA low it gives
clock pulses. -/
def sclHigh (p : PortId) (sdaHigh : Bool) (s : State) : State :=
  match (s.port p).recovery with
  | .waitScl _ =>
    if sdaHigh then startRecoveryStop p s
    else touch p (s.modPort p fun P => { P with recovery := .pulsing 0 s.timebase })
  | _ => s

/-- RECOVERY_SCL_HIGH (R97). -/
def execRecoverySclHigh (p : PortId) (sdaHigh : Bool) (s : State) :
    Host.Outcome State Fault Refusal :=
  .next (whenRunning s (sclHigh p sdaHigh))

/-- A recovery pulse ends with SDA sampled (R97 step 3). -/
def pulseEnd (p : PortId) (sdaHigh : Bool) (s : State) : State :=
  match (s.port p).recovery with
  | .pulsing given _ =>
    if sdaHigh then startRecoveryStop p s
    else if Config.recoveryPulses ≤ given + 1 then enterFaulted p .sdaStuck s
    else touch p (s.modPort p fun P => { P with recovery := .pulsing (given + 1) s.timebase })
  | _ => s

/-- RECOVERY_PULSE (R97). -/
def execRecoveryPulse (p : PortId) (sdaHigh : Bool) (s : State) : Host.Outcome State Fault Refusal :=
  .next (whenRunning s (pulseEnd p sdaHigh))

/-- The recovery STOP ends (R98): SCL that does not rise within its 10 ms fails SCL_STUCK, SDA that
does not rise fails SDA_STUCK, and otherwise the final wait begins. -/
def recoveryStopEnd (p : PortId) (sclRose sdaRose : Bool) (s : State) : State :=
  match (s.port p).recovery with
  | .stopping since =>
    if !sclRose then
      if Config.recoveryLimit ≤ s.since since then enterFaulted p .sclStuck s else s
    else if !sdaRose then enterFaulted p .sdaStuck s
    else
      touch p (releaseLines p (s.modPort p fun P => { P with recovery := .finalWait s.timebase }))
  | _ => s

/-- RECOVERY_STOP (R98). -/
def execRecoveryStop (p : PortId) (sclRose sdaRose : Bool) (s : State) :
    Host.Outcome State Fault Refusal :=
  .next (whenRunning s (recoveryStopEnd p sclRose sdaRose))

/-- Both lines have stayed high for the idle time after the recovery STOP (R98). -/
def finalWaitEnd (p : PortId) (s : State) : State :=
  match (s.port p).recovery with
  | .finalWait _ => if s.idleTimePassed p then recoverySucceeds p true s else s
  | _ => s

/-- RECOVERY_FINAL_WAIT_END (R98). -/
def execRecoveryFinalWaitEnd (p : PortId) (s : State) : Host.Outcome State Fault Refusal :=
  .next (whenRunning s (finalWaitEnd p))

/-- A restart with recovery disabled sees both lines high for the idle time (R101): a success that is
not counted as a recovery. -/
def restartWaitEnd (p : PortId) (s : State) : State :=
  match (s.port p).recovery with
  | .restartWait _ => if s.idleTimePassed p then leaveRecovery p true s else s
  | _ => s

/-- RESTART_IDLE_WAIT_END (R101). -/
def execRestartIdleWaitEnd (p : PortId) (s : State) : Host.Outcome State Fault Refusal :=
  .next (whenRunning s (restartWaitEnd p))

/-- The wait of the recovery procedure that a 10 ms limit bounds: since when, and the reason of a
failure for the level of SCL (R97, R98, R101). -/
def waitLimit (sclHigh : Bool) : Recovery → Option (Word × FaultReason)
  | .none => none
  | .waitScl since => some (since, .sclStuck)
  | .pulsing _ since => some (since, .sclStuck)
  | .stopping since => some (since, .sclStuck)
  | .finalWait since => some (since, if sclHigh then .sdaStuck else .sclStuck)
  | .restartWait since => some (since, if sclHigh then .sdaStuck else .sclStuck)

/-- A 10 ms limit is reached: the recovery or restart fails (R99). -/
def limitExpiry (p : PortId) (sclHigh : Bool) (s : State) : State :=
  match waitLimit sclHigh (s.port p).recovery with
  | some (since, reason) =>
    if Config.recoveryLimit ≤ s.since since then enterFaulted p reason s else s
  | none => s

/-- RECOVERY_LIMIT_EXPIRY (R99). -/
def execRecoveryLimitExpiry (p : PortId) (sclHigh : Bool) (s : State) :
    Host.Outcome State Fault Refusal :=
  .next (whenRunning s (limitExpiry p sclHigh))

end Sys2Proof.Machine
end

