-- ==== Sys2Proof/Machine/TriggerUnit.lean ====
section
/-! DEFINITION. The trigger unit's steps (chapter 7): the tick, the expiries of a tick taken one at a time
in ascending entry number, the end of holdoff, and ALERT# transitions. -/

namespace Sys2Proof.Machine

/-- A tick of the prescaler has come: TP + 1 µs since its start or its last tick (R125), and the
expiries of the last tick have all been taken (R130). -/
def State.tickPassed (s : State) : Bool :=
  s.trig.tickDue.isEmpty &&
    (match s.trig.prescaler with
     | some t => decide (s.trig.tp.toNat + 1 ≤ s.since t)
     | none => false)

/-- The tick work of an ARMED entry's counters (R125 to R127). -/
def Trigger.ticked (E : Trigger) : Trigger :=
  if E.state = .armed then
    match E.kind with
    | .periodic => { E with downCounter := E.downCounter - 1 }
    | .alert => { E with holdoffCtr := if E.holdoffCtr = 0 then 0 else E.holdoffCtr - 1 }
  else E

/-- Whether a tick makes an entry due: its down-counter or its holdoff counter reaches 0, or it is a
LEVEL entry not held off whose line is low (R126, R127, R129). -/
def Trigger.dueAtTick (E : Trigger) (alertLow : Bool) : Bool :=
  E.state == .armed &&
    (match E.kind with
     | .periodic => E.downCounter == 1
     | .alert =>
       E.holdoffCtr == 1 ||
         (E.alertMode == .level && alertLow && !E.outstanding && E.holdoffCtr == 0 &&
           !E.holdoffEnded))

/-- The ALERT# levels an event reports, one bit per port, set when low (R127). -/
def alertLevels (alerts : BitVec 4) : Vector Bool 4 := Vector.ofFn fun p => alerts.getLsbD p.val

/-- The tick (R125): the counters of every ARMED entry are decremented, and the entries that are due
are taken from here in ascending order (R130). -/
def takeTick (alerts : BitVec 4) (s : State) : State :=
  if s.tickPassed then
    let low := alertLevels alerts
    let due := allTriggers.filter fun t =>
      (s.trigger t).dueAtTick (low.get (s.trigger t).alertPort)
    { s with
      trig := { s.trig with
        entries := s.trig.entries.map Trigger.ticked, prescaler := some s.timebase, tickDue := due,
        tickTime := s.timebase, alertLow := low } }
  else s

/-- TICK (R125). -/
def execTick (alerts : BitVec 4) (s : State) : Host.Outcome State Fault Refusal :=
  .next (whenRunning s (takeTick alerts))

/-- Take the entry at the head of those due at the last tick. -/
def popDue (s : State) : State :=
  { s with trig := { s.trig with tickDue := s.trig.tickDue.tail } }

/-- Whether `t` is the next entry due at the last tick (R130). -/
def State.nextDue (s : State) (t : TrigId) : Bool := s.trig.tickDue.head? == some t

/-- A periodic expiry (R126): the entry expires, still ARMED, and is then reloaded, or disabled when
ONE_SHOT. -/
def periodicExpiry (t : TrigId) (s : State) : State :=
  if s.nextDue t && (s.trigger t).kind == .periodic then
    let s := expire t s.trig.tickTime false (popDue s)
    if (s.trigger t).oneShot then disarm t s
    else s.modTrigger t fun E => { E with downCounter := E.period }
  else s

/-- PERIODIC_EXPIRY (R126). -/
def execPeriodicExpiry (t : TrigId) (s : State) : Host.Outcome State Fault Refusal :=
  .next (whenRunning s (periodicExpiry t))

/-- The level of one ALERT# pin as an event reports it (R127). -/
def setAlert (p : PortId) (low : Bool) (s : State) : State :=
  { s with trig := { s.trig with alertLow := upd s.trig.alertLow p fun _ => low } }

/-- What an ALERT entry that is no longer held off does (R128, R129): a latched edge fires with its
capture time; in LEVEL mode a low line expires the entry with `time`. -/
def afterHoldoff (t : TrigId) (low : Bool) (time : Word) (s : State) : State :=
  if (s.trigger t).state = .armed && !s.heldOff t then
    match (s.trigger t).alertMode, (s.trigger t).latched with
    | .edge, some c => expire t c false (s.modTrigger t fun E => { E with latched := none })
    | .edge, none => s
    | .level, _ => if low then expire t time false s else s
  else s

/-- The end of holdoff of an ALERT entry (R127): at a tick, or at the completion of its instance when
its holdoff is 0. A LEVEL entry due at a tick for its low line is taken here as well (R129). -/
def holdoffEnd (t : TrigId) (low : Bool) (s : State) : State :=
  if (s.trigger t).kind = .alert then
    if s.nextDue t then
      afterHoldoff t low s.trig.tickTime (setAlert (s.trigger t).alertPort low (popDue s))
    else if (s.trigger t).holdoffEnded then
      afterHoldoff t low s.timebase (setAlert (s.trigger t).alertPort low
        (s.modTrigger t fun E => { E with holdoffEnded := false }))
    else s
  else s

/-- END_OF_HOLDOFF (R127). -/
def execEndOfHoldoff (t : TrigId) (alertLow : Bool) (s : State) : Host.Outcome State Fault Refusal :=
  .next (whenRunning s (holdoffEnd t alertLow))

/-- What a high-to-low transition does to an entry watching the pin (R128, R129). -/
def alertEdge (p : PortId) (s : State) (t : TrigId) : State :=
  let E := s.trigger t
  if E.state = .armed && E.kind == .alert && E.alertPort == p then
    match E.alertMode with
    | .edge =>
      if !s.heldOff t then expire t s.timebase false s
      else if E.latched.isNone then s.modTrigger t fun E => { E with latched := some s.timebase }
      else expire t s.timebase true s
    | .level => if s.heldOff t then s else expire t s.timebase false s
  else s

/-- ALERT_FALLING_TRANSITION (R128): the entries watching the pin are taken in ascending order
(R130). -/
def execAlertFallingTransition (p : PortId) (s : State) : Host.Outcome State Fault Refusal :=
  .next (whenRunning s fun s => allTriggers.foldl (alertEdge p) (setAlert p true s))

end Sys2Proof.Machine
end

