-- ==== Sys2Proof/Machine/Commands.lean ====
section
/-! DEFINITION. The management commands (chapter 9): checks in the order listed, effect, and when each
completes. A command row acts on the command in hand once its MQ status word write has ended (R169,
R170), if the entry's opcode is its own. -/

namespace Sys2Proof.Machine

/-- A command that fails a check completes with that check's status and changes nothing (R170). -/
def reply (status : Status) (s : State) : State := completeCommand status 0 0 s

/-- Execute the command in hand if its opcode is `op` (R170). -/
def runCommand (op : Byte) (f : List Byte → State → State) (s : State) : State :=
  whenRunning s fun s =>
    match s.mgmt.command with
    | some c => if c.phase = .execute && opcode c.entry == op then f c.entry s else s
    | none => s

/-- Issue the write of a command's results to its host buffer, bytes 16 to 23 of the entry; the
command completes when it ends (R170). -/
def writeBuffer (e : List Byte) (bytes : List Byte) (s : State) : State :=
  issue .cmdWrite (.write [(rd64 e 16, bytes)]) true (setCommandPhase .hostAccess s)

/-- Issue the read of a command's host buffer; the command acts when it ends (R170). -/
def readBuffer (e : List Byte) (bytes : Nat) (s : State) : State :=
  issue .cmdRead (.read [(rd64 e 16, bytes)]) true (setCommandPhase .hostAccess s)

/-! ### UNKNOWN COMMAND and IDENTIFY -/

/-- Opcode 00h and opcodes 15h to FFh are unknown commands (section 12.2). -/
def unknownOpcode (op : Byte) : Bool := op == 0 || decide (0x15 ≤ op.toNat)

/-- UNKNOWN_COMMAND (R170). -/
def execUnknownCommand (s : State) : Host.Outcome State Fault Refusal :=
  .next (whenRunning s fun s =>
    match s.mgmt.command with
    | some c => if c.phase = .execute && unknownOpcode (opcode c.entry) then reply .unknownCommand s else s
    | none => s)

/-- IDENTIFY (R174). -/
def execIdentify (s : State) : Host.Outcome State Fault Refusal :=
  .next (runCommand 0x01 (fun e s => writeBuffer e (identificationRecord s.mgmt) s) s)

/-! ### Completion queues (R175) -/

/-- CREATE COMPLETION QUEUE's checks and effect (R107, R175). -/
def createCq (e : List Byte) (s : State) : State :=
  match asId 4 (byteAt e 8) with
  | none => reply .invalidId s
  | some n =>
    let base := rd64 e 16
    let size := rd16 e 10
    let k := byteAt e 12
    if (s.cq n).state != .absent then reply .already s
    else if !aligned64 base || !sizeOk size.toNat 4 4096 || k == 0 then reply .invalidField s
    else
      let s := s.modCq n fun _ =>
        { CqCtx.reset with state := .running, base := base, size := size, k := k, l := rd16 e 14 }
      setCommandPhase .statusWord (writeCqStatus n .create true s)

/-- CREATE_COMPLETION_QUEUE (R107). -/
def execCreateCompletionQueue (s : State) : Host.Outcome State Fault Refusal :=
  .next (runCommand 0x02 createCq s)

/-- Whether a transaction in POSTING, in its slot, names queue `n` for its record: a trigger report
(R108). Transactions of request queues name it through their queue as well. -/
def State.slotNames (s : State) (n : CqId) (k : SlotId) : Bool :=
  match s.txn k with
  | some t => t.state == .posting && t.cq == n
  | none => false

/-- Whether a target unit names queue `n`: a record it holds, or a message in its staging (R108). -/
def Target.names (T : Target) (n : CqId) : Bool :=
  T.records.any (fun r => r.receive.cq == n) ||
    (match T.staging with
     | .filling m => m.buffer.cq == n
     | .draining m => m.buffer.cq == n
     | _ => false)

/-- Whether the writer is busy for queue `n` (R108). -/
def Writer.names (w : Writer) (n : CqId) : Bool :=
  match w with
  | .record e => e.cq == n
  | .status m _ => m == n
  | .idle => false

/-- Whether the receive unit names queue `n`: a fetch in progress or a waiting record (R108, R164). -/
def RxRing.names (r : RxRing) (n : CqId) : Bool :=
  (match r.fetch with
   | some (_, m) => m == n
   | none => false) ||
    (match r.waiting with
     | some e => e.cq == n
     | none => false)

/-- Whether queue `n` is named by anything listed in R108. -/
def State.cqInUse (s : State) (n : CqId) : Bool :=
  allRqs.any (fun q => (s.rq q).state != .absent && (s.rq q).cq == n) ||
    allPorts.any (fun p => (s.port p).cfg.rxCq == some n) ||
    allTriggers.any (fun t => (s.trigger t).state != .empty && (s.trigger t).cq == n) ||
    s.comp.holding.any (fun e => e.cq == n) || s.comp.writer.names n ||
    allSlots.any (s.slotNames n) ||
    allPorts.any (fun p => (s.port p).tgt.names n) ||
    s.rx.names n

/-- DELETE COMPLETION QUEUE's checks and effect (R108, R175). The context takes its Reset values when
the final status word write has ended. -/
def deleteCq (e : List Byte) (s : State) : State :=
  match asId 4 (byteAt e 8) with
  | none => reply .invalidId s
  | some n =>
    if (s.cq n).state = .absent then reply .invalidId s
    else if s.cqInUse n then reply .inUse s
    else
      let s := s.modCq n fun c => { c with state := .absent, unannounced := 0, timer := none }
      setCommandPhase .statusWord (writeCqStatus n .delete true s)

/-- DELETE_COMPLETION_QUEUE (R108). -/
def execDeleteCompletionQueue (s : State) : Host.Outcome State Fault Refusal :=
  .next (runCommand 0x03 deleteCq s)

/-! ### Request queues (R176) -/

/-- CREATE REQUEST QUEUE's checks and effect (R25, R176). -/
def createRq (e : List Byte) (s : State) : State :=
  match asId 8 (byteAt e 8) with
  | none => reply .invalidId s
  | some q =>
    let base := rd64 e 16
    let size := rd16 e 10
    let weight := byteAt e 12
    if (s.rq q).state != .absent then reply .already s
    else
      match asId 4 (byteAt e 9) with
      | none => reply .invalidField s
      | some n =>
        if !aligned64 base || !sizeOk size.toNat 4 4096 || weight == 0 || decide (8 < weight.toNat) then
          reply .invalidField s
        else if (s.cq n).state = .absent then reply .invalidId s
        else if (s.cq n).state != .running then reply .wrongState s
        else
          let s := s.modRq q fun _ =>
            { RqCtx.reset with state := .running, base := base, size := size, cq := n, weight := weight }
          setCommandPhase .statusWord (writeRqStatus q true s)

/-- CREATE_REQUEST_QUEUE (R25). -/
def execCreateRequestQueue (s : State) : Host.Outcome State Fault Refusal :=
  .next (runCommand 0x04 createRq s)

/-- Whether the transaction in a slot was taken from queue `q`. -/
def Txn.ofQueue (t : Txn) (q : RqId) : Bool := t.origin == .rq q

/-- What the deletion of its queue does to a transaction (R42). -/
def flush (k : SlotId) (t : Txn) (s : State) : State :=
  match t.state with
  | .held | .waiting => markTxn k .flushed s
  | .retryWait => fixOutside t.port k .flushed 0 s
  | _ => s

/-- The deletion of queue `q` reaches slot `k`. -/
def flushSlot (q : RqId) (s : State) (k : SlotId) : State :=
  match s.txn k with
  | some t => if t.ofQueue q then flush k t s else s
  | none => s

/-- DELETE REQUEST QUEUE's checks and effect (R42, R43, R176). -/
def deleteRq (e : List Byte) (s : State) : State :=
  match asId 8 (byteAt e 8) with
  | none => reply .invalidId s
  | some q =>
    if (s.rq q).state = .absent then reply .invalidId s
    else if (s.rq q).state = .deleting then reply .wrongState s
    else
      let s := setCommandPhase (.deleteRq q) s
      let s := s.modRq q fun c => { c with state := .deleting, deletePending := true }
      deletionEnd q (allSlots.foldl (flushSlot q) (writeRqStatus q false s))

/-- DELETE_REQUEST_QUEUE (R42). -/
def execDeleteRequestQueue (s : State) : Host.Outcome State Fault Refusal :=
  .next (runCommand 0x05 deleteRq s)

/-! ### Ports (R177, R178) -/

/-- R177's checks of the receive CQ, after those of the fields. -/
def rxCqStatus (c : Settings) (s : State) : Option Status :=
  match c.rxCq with
  | some n =>
    if (s.cq n).state = .absent then some .invalidId
    else if c.targetEnable && c.takesMessages && (s.cq n).state != .running then some .wrongState
    else none
  | none => if c.targetEnable && c.takesMessages then some .invalidId else none

/-- The port's items that CONFIGURE PORT replaces or clears (R144, R177). -/
def Port.configured (c : Settings) (P : Port) : Port :=
  { P with
    cfg := c,
    tgt := { P.tgt with
      images := Vector.replicate 3 (List.replicate Config.imageBytes 0),
      pointers := Vector.replicate 3 0, replies := Vector.replicate 3 Reply.reset } }

/-- CONFIGURE PORT's checks and effect (R177). -/
def configure (e : List Byte) (s : State) : State :=
  match asId 4 (byteAt e 8) with
  | none => reply .invalidId s
  | some p =>
    if (s.port p).state != .off then reply .wrongState s
    else
      match parseSettings e with
      | none => reply .invalidField s
      | some c =>
        if !slotsOk c.slots || !imagesOk c.slots then reply .invalidField s
        else
          match rxCqStatus c s with
          | some status => reply status s
          | none => reply .success (s.modPort p (Port.configured c))

/-- CONFIGURE_PORT (R177). -/
def execConfigurePort (s : State) : Host.Outcome State Fault Refusal :=
  .next (runCommand 0x06 configure s)

/-- The port's items at ENABLE PORT (R63, R88, R93, R145, R162). -/
def Port.enabled (now : Word) (P : Port) : Port :=
  { P with
    state := .observing, enabling := true, busFree := false, inStep := false, awaitAddr := false,
    eng := Engine.reset, idleFrom := now, clockLowFrom := now, stuckDataFrom := now, reason := none,
    tgt := P.tgt.cleared (if P.cfg.wantsBuffer then .wanted else .nothing) }

/-- ENABLE PORT's checks and effect (R93, R178). -/
def enable (e : List Byte) (s : State) : State :=
  match asId 4 (byteAt e 8) with
  | none => reply .invalidId s
  | some p =>
    if (s.port p).state != .off then reply .wrongState s
    else setCommandPhase (.port p .enable) (s.modPort p (Port.enabled s.timebase))

/-- ENABLE_PORT (R93). -/
def execEnablePort (s : State) : Host.Outcome State Fault Refusal := .next (runCommand 0x07 enable s)

/-- The transaction in slot `k`, HELD or WAITING and naming port `p`, is marked PORT_OFF (R59). -/
def markOff (p : PortId) (s : State) (k : SlotId) : State :=
  match s.txn k with
  | some t =>
    if t.port == p && (t.state == .held || t.state == .waiting) then markTxn k .portOff s else s
  | none => s

/-- What DISABLE PORT does to the in-service transaction (R59). -/
def disableService (p : PortId) (k : SlotId) (t : Txn) (s : State) : State :=
  match t.state with
  | .staging => setPendingResult p .portOff 0 s
  | .ready | .retryWait => fixOutside p k .portOff 0 s
  | _ => s

/-- DISABLE PORT's checks and effect (R59, R178). -/
def disable (e : List Byte) (s : State) : State :=
  match asId 4 (byteAt e 8) with
  | none => reply .invalidId s
  | some p =>
    if (s.port p).state = .off then reply .wrongState s
    else
      let s := setCommandPhase (.port p .disable) s
      let s := s.modPort p fun P => { P with disablePending := true }
      let s := allSlots.foldl (markOff p) s
      if (s.port p).inService.isNone then tellDisable p s
      else withService p (fun k t s => disableService p k t s) s

/-- DISABLE_PORT (R59). -/
def execDisablePort (s : State) : Host.Outcome State Fault Refusal := .next (runCommand 0x08 disable s)

/-- RESTART PORT's checks and effect (R101, R178). -/
def restart (e : List Byte) (s : State) : State :=
  match asId 4 (byteAt e 8) with
  | none => reply .invalidId s
  | some p =>
    if (s.port p).state != .faulted then reply .wrongState s
    else
      let s := startRecovery p (setCommandPhase (.port p .restart) s)
      if (s.port p).cfg.recovery then s
      else s.modPort p fun P => { P with recovery := .restartWait s.timebase }

/-- RESTART_PORT (R101). -/
def execRestartPort (s : State) : Host.Outcome State Fault Refusal := .next (runCommand 0x09 restart s)

/-! ### Receive ring, images and replies (R179, R180) -/

/-- SET RECEIVE RING's checks and effect (R160, R179). -/
def setRing (e : List Byte) (s : State) : State :=
  let base := rd64 e 16
  let size := rd16 e 10
  if !aligned64 base || !sizeOk size.toNat 4 1024 then reply .invalidField s
  else if allPorts.any (fun p => (s.port p).state != .off && (s.port p).cfg.targetEnable) ||
      s.rx.fetch.isSome || s.rx.waiting.isSome then reply .inUse s
  else
    let s := { s with
      rx := { s.rx with
        state := .running, base := base, size := size, posted := 0, taken := 0, reason := .nothing } }
    setCommandPhase .statusWord (writeRxStatus true s)

/-- SET_RECEIVE_RING (R160). -/
def execSetReceiveRing (s : State) : Host.Outcome State Fault Refusal :=
  .next (runCommand 0x0A setRing s)

/-- The port and the slot a command names in bytes 8 and 9 (R180). -/
def portSlot (e : List Byte) : Option (PortId × OwnId) :=
  match asId 4 (byteAt e 8), asId 3 (byteAt e 9) with
  | some p, some o => some (p, o)
  | _, _ => none

/-- WRITE IMAGE's checks; its bytes are then read (R152, R180). -/
def writeImage (e : List Byte) (s : State) : State :=
  match portSlot e with
  | none => reply .invalidId s
  | some (p, o) =>
    let slot := (s.port p).cfg.slots.get o
    let offset := (rd16 e 10).toNat
    let length := (rd16 e 12).toNat
    if slot.role != .image then reply .wrongState s
    else if length = 0 || decide (256 < length) || decide (slot.imageLen.toNat < offset + length) then
      reply .invalidField s
    else readBuffer e length s

/-- WRITE_IMAGE (R152). -/
def execWriteImage (s : State) : Host.Outcome State Fault Refusal :=
  .next (runCommand 0x0B writeImage s)

/-- Whether an IMAGE_READ of slot `o` is in progress (R152). -/
def Transfer.reads (x : Transfer) (o : OwnId) : Bool :=
  match x with
  | .imageRead o' _ => o' == o
  | _ => false

/-- WRITE IMAGE's bytes have been read: applied at once, or held until the read transfer in progress
ends (R152). -/
def imageRead (e : List Byte) (bytes : List Byte) (s : State) : State :=
  match portSlot e with
  | none => s
  | some (p, o) =>
    let offset := (rd16 e 10).toNat
    if (s.port p).tgt.transfer.reads o then
      setCommandPhase (.update p)
        (s.modTarget p fun T => { T with held := some (.image o offset bytes) })
    else reply .success (applyImage p o offset bytes s)

/-- SET REPLY's checks and effect (R154, R180). -/
def setReply (e : List Byte) (s : State) : State :=
  match portSlot e with
  | none => reply .invalidId s
  | some (p, o) =>
    let length := (byteAt e 10).toNat
    let bytes := (e.drop 16).take length
    if ((s.port p).cfg.slots.get o).role != .mailbox then reply .wrongState s
    else if length = 0 || decide (32 < length) then reply .invalidField s
    else if ((s.port p).tgt.replies.get o).state = .reading then
      setCommandPhase (.update p) (s.modTarget p fun T => { T with held := some (.reply o bytes) })
    else reply .success (applyReply p o bytes s)

/-- SET_REPLY (R154). -/
def execSetReply (s : State) : Host.Outcome State Fault Refusal := .next (runCommand 0x0C setReply s)

/-! ### Triggers (R181) -/

/-- DEFINE TRIGGER's checks before its definition is read (R139 steps 1 to 3). -/
def defineTrigger (e : List Byte) (s : State) : State :=
  match asId 32 (byteAt e 8) with
  | none => reply .invalidId s
  | some t =>
    if (s.trigger t).state = .armed || (s.trigger t).outstanding then reply .wrongState s
    else readBuffer e 128 s

/-- DEFINE_TRIGGER (R139). -/
def execDefineTrigger (s : State) : Host.Outcome State Fault Refusal :=
  .next (runCommand 0x0D defineTrigger s)

/-- The definition has been read: it is validated and sets the entry (R139 steps 4 and 5). -/
def definitionRead (e : List Byte) (d : List Byte) (s : State) : State :=
  match asId 32 (byteAt e 8) with
  | none => s
  | some t =>
    match parseDefinition d with
    | none => reply .invalidField s
    | some E =>
      match definitionCq d with
      | none => reply .invalidId s
      | some n =>
        if (s.cq n).state = .absent then reply .invalidId s
        else reply .success (s.modTrigger t fun _ => { E with cq := n })

/-- Whether a map names entry `t` (R140, R141). -/
def mapNames (map : Word) (t : TrigId) : Bool := map.getLsbD t.val

/-- A DISABLED entry as ENABLE TRIGGERS arms it (R140). -/
def Trigger.enabled (E : Trigger) : Trigger :=
  { E with
    state := .armed, first := true, consecutive := 0, latched := none, holdoffCtr := 0,
    holdoffEnded := false,
    downCounter := match E.kind with
      | .periodic => E.phase
      | .alert => E.downCounter }

/-- Arm the named DISABLED entries (R140). -/
def armNamed (map : Word) (s : State) (t : TrigId) : State :=
  if mapNames map t && (s.trigger t).state == .disabled then s.modTrigger t Trigger.enabled else s

/-- A LEVEL entry just armed with its line low and no instance outstanding expires (R129, R140). -/
def fireLevel (armed : List TrigId) (s : State) (t : TrigId) : State :=
  let E := s.trigger t
  if armed.contains t && E.kind == .alert && E.alertMode == .level &&
      s.trig.alertLow.get E.alertPort && !s.heldOff t then
    expire t s.timebase false s
  else s

/-- ENABLE TRIGGERS' check and effect (R125, R140), with the ALERT# levels at this moment. -/
def armTriggers (alerts : BitVec 4) (e : List Byte) (s : State) : State :=
  let map := rd32 e 8
  if allTriggers.any fun t => mapNames map t && (s.trigger t).state == .empty then reply .invalidId s
  else
    let wasArmed := s.someArmed
    let armed := allTriggers.filter fun t => mapNames map t && (s.trigger t).state == .disabled
    let s := allTriggers.foldl (armNamed map)
      { s with trig := { s.trig with alertLow := alertLevels alerts } }
    let s := if !wasArmed && s.someArmed then
        { s with trig := { s.trig with prescaler := some s.timebase } }
      else s
    reply .success (allTriggers.foldl (fireLevel armed) s)

/-- ENABLE_TRIGGERS (R140). -/
def execEnableTriggers (alerts : BitVec 4) (s : State) : Host.Outcome State Fault Refusal :=
  .next (runCommand 0x0E (armTriggers alerts) s)

/-- Disarm entry `t` if it is named and ARMED (R141). -/
def disarmNamed (map : Word) (s : State) (t : TrigId) : State :=
  if mapNames map t && (s.trigger t).state == .armed then disarm t s else s

/-- DISABLE TRIGGERS' effect; it completes when no named entry has an instance outstanding (R141). -/
def disarmTriggers (e : List Byte) (s : State) : State :=
  let map := rd32 e 8
  checkInstances (setCommandPhase (.instances map) (allTriggers.foldl (disarmNamed map) s))

/-- DISABLE_TRIGGERS (R141). -/
def execDisableTriggers (s : State) : Host.Outcome State Fault Refusal :=
  .next (runCommand 0x0F disarmTriggers s)

/-- CLEAR TRIGGER's checks and effect (R142, R181). -/
def clearTrigger (e : List Byte) (s : State) : State :=
  match asId 32 (byteAt e 8) with
  | none => reply .invalidId s
  | some t =>
    if (s.trigger t).state != .disabled || (s.trigger t).outstanding then reply .wrongState s
    else reply .success (s.modTrigger t fun _ => Trigger.reset)

/-- CLEAR_TRIGGER (R142). -/
def execClearTrigger (s : State) : Host.Outcome State Fault Refusal :=
  .next (runCommand 0x10 clearTrigger s)

/-- QUERY TRIGGER's check and effect (R120, R181). -/
def queryTrigger (e : List Byte) (s : State) : State :=
  match asId 32 (byteAt e 8) with
  | none => reply .invalidId s
  | some t => writeBuffer e (queryRecord (s.trigger t)) s

/-- QUERY_TRIGGER (R181). -/
def execQueryTrigger (s : State) : Host.Outcome State Fault Refusal :=
  .next (runCommand 0x11 queryTrigger s)

/-- SET TICK's checks and effect (R125, R181). -/
def setTick (e : List Byte) (s : State) : State :=
  let tp := rd16 e 8
  if s.someArmed then reply .wrongState s
  else if tp.toNat < 9 then reply .invalidField s
  else reply .success { s with trig := { s.trig with tp := tp } }

/-- SET_TICK (R125). -/
def execSetTick (s : State) : Host.Outcome State Fault Refusal := .next (runCommand 0x12 setTick s)

/-! ### ABORT and READ PORT STATISTICS (R182) -/

/-- How an ABORT counts a transaction: hit or too late (R58). -/
def abortHits (t : Txn) (s : State) : Bool :=
  match t.state with
  | .held | .waiting => t.mark.isNone
  | .staging => (s.port t.port).pendingResult.isNone
  | .ready | .retryWait => true
  | .active => (s.port t.port).eng.takesStop
  | _ => false

/-- What an ABORT does to a transaction it hits (R58). -/
def strike (k : SlotId) (t : Txn) (s : State) : State :=
  match t.state with
  | .held | .waiting => markTxn k .aborted s
  | .staging => setPendingResult t.port .aborted 0 s
  | .ready | .retryWait => fixOutside t.port k .aborted 0 s
  | .active => requestStop t.port .aborted s
  | _ => s

/-- Whether an ABORT strikes the transaction in a slot: taken from queue `q` with the tag, and not yet
completed (R58). R58's list of places does not name a transaction whose record is being written, taken out
of the holding list and not yet completed; it is struck, and too late. DESIGN CHOICE (log entry 58). -/
def Txn.struck (t : Txn) (q : RqId) (tag : Half) : Bool := t.ofQueue q && t.req.tag == tag

/-- The transactions that an ABORT sorts as hit, or as too late, as they stand (R182); one whose record is
being written is too late. DESIGN CHOICE (log entry 58). -/
def abortCount (hit : Bool) (q : RqId) (tag : Half) (s : State) : Nat :=
  (allSlots.filter fun k =>
    match s.txn k with
    | some t => t.struck q tag && (abortHits t s == hit)
    | none => false).length

/-- The ABORT reaches slot `k`. -/
def strikeSlot (q : RqId) (tag : Half) (s : State) (k : SlotId) : State :=
  match s.txn k with
  | some t => if t.struck q tag && abortHits t s then strike k t s else s
  | none => s

/-- ABORT's check and effect (R58, R182): hits in A, too late in B. -/
def abortTag (e : List Byte) (s : State) : State :=
  match asId 8 (byteAt e 8) with
  | none => reply .invalidId s
  | some q =>
    let tag := rd16 e 10
    if (s.rq q).state = .absent then reply .invalidId s
    else
      let a := abortCount true q tag s
      let b := abortCount false q tag s
      completeCommand .success (BitVec.ofNat 32 a) (BitVec.ofNat 32 b)
        (allSlots.foldl (strikeSlot q tag) s)

/-- ABORT (R58). -/
def execAbort (s : State) : Host.Outcome State Fault Refusal := .next (runCommand 0x13 abortTag s)

/-- READ PORT STATISTICS' check and effect (R182). -/
def readStatistics (e : List Byte) (s : State) : State :=
  match asId 4 (byteAt e 8) with
  | none => reply .invalidId s
  | some p => writeBuffer e (statsRecord (s.port p).stats) s

/-- READ_PORT_STATISTICS (R182). -/
def execReadPortStatistics (s : State) : Host.Outcome State Fault Refusal :=
  .next (runCommand 0x14 readStatistics s)

/-! ### The end of a command's host buffer access (R170, R172) -/

/-- A command's host buffer read has ended: the command acts on the bytes, or completes
HOST_FAULT. -/
def cmdReadEnd (ok : Bool) (data : List Byte) (s : State) : State :=
  match s.mgmt.command with
  | some c =>
    if c.phase = .hostAccess then
      if !ok then reply .hostFault s
      else if opcode c.entry = 0x0B then imageRead c.entry data s
      else definitionRead c.entry data s
    else s
  | none => s

/-- A command's host buffer write has ended: the command completes. -/
def cmdWriteEnd (ok : Bool) (s : State) : State :=
  completeIf .hostAccess (if ok then .success else .hostFault) 0 s

end Sys2Proof.Machine
end

