-- ==== Sys2Proof/Machine/TargetUnit.lean ====
section
/-! DEFINITION. The target units' steps (chapter 8): address bytes, the bytes of each role, conflicts and
the end of a transfer, the stretch limit, and the end of a message's drain. -/

namespace Sys2Proof.Machine

/-- A complete outside address byte is judged when the target unit may judge (R89, R146). -/
def addressSeen (p : PortId) (byte : Byte) (s : State) : State :=
  if (s.port p).state = .observing && (s.port p).awaitAddr then
    let s := touch p (s.modPort p fun P => { P with awaitAddr := false })
    if s.judges p then judge p byte s else s
  else s

/-- ADDRESS_BYTE (R146). -/
def execAddressByte (p : PortId) (byte : Byte) (s : State) : Host.Outcome State Fault Refusal :=
  .next (whenRunning s (addressSeen p byte))

/-- A byte written in IMAGE_WRITE (R150): the first sets the pointer modulo the image length. -/
def imageWritten (p : PortId) (byte : Byte) (s : State) : State :=
  match (s.port p).tgt.transfer with
  | .imageWrite o true =>
    let len := ((s.port p).cfg.slots.get o).imageLen.toNat
    giveAck p true (touch p (s.modTarget p fun T =>
      { T with
        transfer := .imageWrite o false,
        pointers := upd T.pointers o fun _ => byteN (byte.toNat % len) }))
  | .imageWrite _ false => giveAck p false (touch p s)
  | _ => s

/-- IMAGE_WRITE_BYTE (R150). -/
def execImageWriteByte (p : PortId) (byte : Byte) (s : State) : Host.Outcome State Fault Refusal :=
  .next (whenRunning s (imageWritten p byte))

/-- A byte written to a mailbox (R156): stored while the length is below the capacity, otherwise
refused and the message TRUNCATED. A byte after a refusal is refused: the length no longer changes. -/
def mailboxWritten (p : PortId) (byte : Byte) (s : State) : State :=
  match (s.port p).tgt.transfer, (s.port p).tgt.staging with
  | .mailboxWrite, .filling m =>
    let room := decide (m.bytes.length < m.buffer.cap.toNat)
    let m' := if room then { m with bytes := m.bytes ++ [byte] } else { m with truncated := true }
    giveAck p room (touch p (s.modTarget p fun T => { T with staging := .filling m' }))
  | _, _ => s

/-- MAILBOX_WRITE_BYTE (R156). -/
def execMailboxWriteByte (p : PortId) (byte : Byte) (s : State) : Host.Outcome State Fault Refusal :=
  .next (whenRunning s (mailboxWritten p byte))

/-- A byte is sent to an outside master (R149). -/
def sendTarget (p : PortId) (b : Byte) (s : State) : State :=
  touch p (s.modPort p fun P => { P with lastSent := some b })

/-- The image pointer after a byte sent: it wraps from image length − 1 to 0 (R151). -/
def nextPointer (x : Byte) (len : Nat) : Byte := if len ≤ x.toNat + 1 then 0 else x + 1

/-- A byte sent in IMAGE_READ, and the master's acknowledge (R149, R151). -/
def imageSent (p : PortId) (ack : Bool) (s : State) : State :=
  match (s.port p).tgt.transfer with
  | .imageRead o false =>
    let x := (s.port p).tgt.pointers.get o
    let len := ((s.port p).cfg.slots.get o).imageLen.toNat
    sendTarget p (byteAt ((s.port p).tgt.images.get o) x.toNat) (s.modTarget p fun T =>
      { T with
        transfer := .imageRead o (!ack),
        pointers := upd T.pointers o fun _ => nextPointer x len })
  | _ => s

/-- IMAGE_READ_BYTE (R151). -/
def execImageReadByte (p : PortId) (ack : Bool) (s : State) : Host.Outcome State Fault Refusal :=
  .next (whenRunning s (imageSent p ack))

/-- A byte sent in REPLY_READ: FFh beyond the last reply byte (R153). -/
def replySent (p : PortId) (ack : Bool) (s : State) : State :=
  match (s.port p).tgt.transfer with
  | .replyRead o pos false =>
    sendTarget p (((s.port p).tgt.replies.get o).bytes.getD pos 0xFF) (s.modTarget p fun T =>
      { T with transfer := .replyRead o (pos + 1) (!ack) })
  | _ => s

/-- REPLY_READ_BYTE (R153). -/
def execReplyReadByte (p : PortId) (ack : Bool) (s : State) : Host.Outcome State Fault Refusal :=
  .next (whenRunning s (replySent p ack))

/-- Whether a transfer sends bytes at the moment (R149). -/
def Transfer.sends : Transfer → Bool
  | .imageRead _ done => !done
  | .replyRead _ _ done => !done
  | _ => false

/-- A conflict in the read direction (R149): the transfer is over, the port OBSERVING at once; a port
told to disable enters OFF, since the transfer has ended (R94). -/
def readConflict (p : PortId) (s : State) : State :=
  if (s.port p).tgt.transfer.sends then
    let s := endTransfer p false false (touch p (s.modPort p fun P => { P with state := .observing }))
    if (s.port p).tgt.disableTold then enterOff p s else s
  else s

/-- TARGET_READ_CONFLICT (R149). -/
def execTargetReadConflict (p : PortId) (s : State) : Host.Outcome State Fault Refusal :=
  .next (whenRunning s (readConflict p))

/-- Whether a START ended the transfer (R149). -/
def byRestart : TransferEnding → Bool
  | .stop => false
  | .restart => true

/-- The target transfer ends by STOP or by repeated START (R149, R157): the role's end effects are
applied, and the port enters IDLE, or OBSERVING with an address byte to come; one told to disable
enters OFF (R94). -/
def transferEnd (p : PortId) (ending : TransferEnding) (s : State) : State :=
  if (s.port p).tgt.transfer = .none then s
  else
    let s := endTransfer p (byRestart ending) false (touch p s)
    if byRestart ending then
      observeStart p (setVerdict p false s)
    else enterIdle p s

/-- TARGET_TRANSFER_END (R149). -/
def execTargetTransferEnd (p : PortId) (ending : TransferEnding) (s : State) :
    Host.Outcome State Fault Refusal :=
  .next (whenRunning s (transferEnd p ending))

/-- The stretch limit passes in DECIDING: the address is refused and counted (R155). -/
def stretchExpiry (p : PortId) (s : State) : State :=
  match (s.port p).tgt.transfer with
  | .deciding _ _ since =>
    if (s.port p).cfg.stretch.toNat * 10 ≤ s.since since then refuseMessage p s else s
  | _ => s

/-- STRETCH_LIMIT_EXPIRY (R155). -/
def execStretchLimitExpiry (p : PortId) (s : State) : Host.Outcome State Fault Refusal :=
  .next (whenRunning s (stretchExpiry p))

/-- TARGET_DRAIN_END (R158). -/
def execTargetDrainEnd (p : PortId) (ok : Bool) (s : State) : Host.Outcome State Fault Refusal :=
  .next (awake s fun s =>
    endAccess (isKind (.targetDrain p)) 0 ok 0 (fun _ ok s => drainEnded p ok s) s)

end Sys2Proof.Machine
end

