-- ==== Sys2Proof/Machine/HostLink.lean ====
section
/-! DEFINITION. The host link's steps (chapter 10): the register window, notifies, the bus mastering
enable, and how a host access of any block fails or ends. -/

namespace Sys2Proof.Machine

/-! ### Notifies (R190) -/

/-- A posted notify, side 0, by ring index (R190). -/
def postedNotify (index : Nat) (count : Half) (s : State) : State :=
  if index = 0 then takeMqNotify count s
  else if h : index - 1 < 8 then takeRqNotify ⟨index - 1, h⟩ count s
  else if index = 9 then takeRxNotify count s
  else setStray s

/-- A consumed notify, side 1, by ring index (R190). -/
def consumedNotify (index : Nat) (count : Half) (s : State) : State :=
  if index = 0 then takeMcqNotify count s
  else if h : index - 1 < 4 then takeCqNotify ⟨index - 1, h⟩ count s
  else setStray s

/-- A write to NTF (R190): handed to the ring's owner in RUNNING and HALTED, stray in any other state
and for an index that names no ring. -/
def notify (side : Bool) (index : Nat) (count : Half) (s : State) : State :=
  if s.live then if side then consumedNotify index count s else postedNotify index count s
  else setStray s

/-- MQ_POSTED_NOTIFY (R167). -/
def execMqPostedNotify (count : Half) (s : State) : Host.Outcome State Fault Refusal :=
  .next (awake s (notify false 0 count))

/-- RQ_POSTED_NOTIFY (R26): index 1 to 8 for RQ0 to RQ7. -/
def execRqPostedNotify (q : RqId) (count : Half) (s : State) : Host.Outcome State Fault Refusal :=
  .next (awake s (notify false (q.val + 1) count))

/-- RECEIVE_RING_POSTED_NOTIFY (R161): index 9. -/
def execReceiveRingPostedNotify (count : Half) (s : State) : Host.Outcome State Fault Refusal :=
  .next (awake s (notify false 9 count))

/-- MCQ_CONSUMED_NOTIFY (R168). -/
def execMcqConsumedNotify (count : Half) (s : State) : Host.Outcome State Fault Refusal :=
  .next (awake s (notify true 0 count))

/-- CQ_CONSUMED_NOTIFY (R109): index 1 to 4 for CQ0 to CQ3. -/
def execCqConsumedNotify (n : CqId) (count : Half) (s : State) : Host.Outcome State Fault Refusal :=
  .next (awake s (notify true (n.val + 1) count))

/-- STRAY_NOTIFY (R190): a notify whose side and index are as written, stray by the rule that takes
it. -/
def execStrayNotify (side : Bool) (index : Byte) (count : Half) (s : State) :
    Host.Outcome State Fault Refusal :=
  .next (awake s (notify side index.toNat count))

/-! ### The register window (R186 to R189, section 12.7) -/

/-- A write to ISR clears the bits written 1 (R118). -/
def isrWrite (value : Word) (s : State) : State :=
  setInts (s.ints.isr &&& ~~~ value.extractLsb' 0 8) s.ints.imr s

/-- ISR_CLEAR (R118). -/
def execIsrClear (value : Word) (s : State) : Host.Outcome State Fault Refusal :=
  .next (awake s (isrWrite value))

/-- A write to IMR (R119). -/
def imrWrite (value : Word) (s : State) : State := setInts s.ints.isr (value.extractLsb' 0 8) s

/-- IMR_WRITE (R119). -/
def execImrWrite (value : Word) (s : State) : Host.Outcome State Fault Refusal :=
  .next (awake s (imrWrite value))

/-- A write to GSR: 1 in bit 16 clears the stray-notify bit, all else is ignored (R189). -/
def gsrWrite (value : Word) (s : State) : State :=
  if value.getLsbD 16 then { s with link := { s.link with stray := false } } else s

/-- GSR_STRAY_CLEAR (R189). -/
def execGsrStrayClear (value : Word) (s : State) : Host.Outcome State Fault Refusal :=
  .next (awake s (gsrWrite value))

/-- A write to GCR: SRST is bit 1 and EN bit 0 (R188). -/
def gcrWrite (value : Word) (s : State) : State :=
  if value.getLsbD 1 then softReset s
  else if value.getLsbD 0 then enableController s
  else stopController s

/-- A write to NTF: count in bits 15:0, ring index in 23:16, side in bit 24 (R190). -/
def ntfWrite (value : Word) (s : State) : State :=
  notify (value.getLsbD 24) (value.extractLsb' 16 8).toNat (value.extractLsb' 0 16) s

/-- A write of a whole register by its offset (R186): IDR is read-only, the low 8 bits of SBL are
ignored (R187), and an offset that holds no register takes no write. -/
def writeRegister (offset : Nat) (value : Word) (s : State) : State :=
  match offset with
  | 0x004 => gcrWrite value s
  | 0x008 => gsrWrite value s
  | 0x00C => { s with link := { s.link with sbl := value &&& 0xFFFFFF00 } }
  | 0x010 => { s with link := { s.link with sbh := value } }
  | 0x014 => ntfWrite value s
  | 0x018 => isrWrite value s
  | 0x01C => imrWrite value s
  | _ => s

/-- REGISTER_WRITE (R186): a write of fewer than 4 bytes is ignored. -/
def execRegisterWrite (offset : BitVec 12) (nbytes : Nat) (value : Word) (s : State) :
    Host.Outcome State Fault Refusal :=
  .next (awake s fun s => if nbytes = 4 then writeRegister offset.toNat value s else s)

/-- What a read of a register returns (R186, R187, R189, section 12.7); a read changes nothing. -/
def readRegister (offset : Nat) (s : State) : Word :=
  match offset with
  | 0x000 => Config.idr
  | 0x004 => if s.link.en then 1 else 0
  | 0x008 =>
    s.link.ctrl.code.setWidth 32 ||| (s.link.haltFault.code.setWidth 32 <<< 8) |||
      (if s.link.stray then BitVec.twoPow 32 16 else 0)
  | 0x00C => s.link.sbl
  | 0x010 => s.link.sbh
  | 0x018 => s.ints.isr.setWidth 32
  | 0x01C => s.ints.imr.setWidth 32
  | _ => 0

/-- What a read of `n` bytes of the window returns: the addressed bytes of the registers (R186). -/
def readWindow (offset n : Nat) (s : State) : List Byte :=
  (List.range n).map fun i =>
    (readRegister ((offset + i) / 4 * 4) s).extractLsb' ((offset + i) % 4 * 8) 8

/-! ### The end of a host access (R185) -/

/-- The block that issued an access is told that it has failed (R185's table). -/
def failAccess (a : Access) (s : State) : State :=
  match a.kind with
  | .header => headerEnd false [] s
  | .controllerStatus => s
  | .mqEntry => mqEntryEnd false [] s
  | .mqStatus atStart => mqStatusEnd atStart false s
  | .mcqRecord => mcqRecordEnd false s
  | .mcqStatus atStart => mcqStatusEnd atStart false s
  | .cmdRead => cmdReadEnd false [] s
  | .cmdWrite => cmdWriteEnd false s
  | .rqEntry _ => rqEntryEnd false [] s
  | .rqStatus q => rqStatusEnd q a false s
  | .staging p => stagingEnd p false [] s
  | .draining p => drainingEnd p false s
  | .cqRecord => recordEnd false s
  | .cqStatus n why => cqStatusEnd n why a false s
  | .rxEntry => fetchEnd false [] s
  | .rxStatus => rxStatusEnd a false s
  | .targetDrain p => drainEnded p false s

/-- An access that was in flight has failed; in STOPPING its outcome is discarded, but for an MCQ write
sequence (R195). -/
def accessFails (s : State) (a : Access) : State := if s.heeds a then failAccess a s else s

/-- Bus mastering enable changes (R185). When it is cleared, every access in flight fails; the blocks
are told in the order of issue (log entry 8). -/
def setBusMaster (on : Bool) (s : State) : State :=
  let s := { s with link := { s.link with busMaster := on } }
  if on then s else s.accesses.foldl accessFails { s with accesses := [] }

/-- BUS_MASTERING_CHANGE (R185). -/
def execBusMasteringChange (on : Bool) (s : State) : Host.Outcome State Fault Refusal :=
  .next (awake s (setBusMaster on))

/-- No report arrives within 50 ms for the `k`-th access in flight: it fails (R185). -/
def timeoutAccess (k : Nat) (s : State) : State :=
  match popAccess (fun _ => true) k s.accesses with
  | some (a, rest) =>
    if Config.accessLimit ≤ s.since a.issuedAt then accessFails { s with accesses := rest } a else s
  | none => s

/-- ACCESS_TIMEOUT (R185). -/
def execAccessTimeout (k : Nat) (s : State) : Host.Outcome State Fault Refusal :=
  .next (awake s (timeoutAccess k))

/-- Whether an access is one the command in hand waits for: its host buffer, or the status word write
it completes with (R170). -/
def isCommandAccess (a : Access) : Bool := a.forCommand

/-- The end of an access the command in hand waits for (R170). -/
def commandAccessEnd (data : List Byte) (a : Access) (ok : Bool) (s : State) : State :=
  match a.kind with
  | .cmdRead => cmdReadEnd ok data s
  | .cmdWrite => cmdWriteEnd ok s
  | .rqStatus q => rqStatusEnd q a ok s
  | .cqStatus n why => cqStatusEnd n why a ok s
  | .rxStatus => rxStatusEnd a ok s
  | _ => s

/-- COMMAND_HOST_ACCESS_END (R170). -/
def execCommandHostAccessEnd (ok : Bool) (data : List Byte) (s : State) :
    Host.Outcome State Fault Refusal :=
  .next (awake s fun s =>
    endAccess isCommandAccess 0 ok data.length (fun a ok s => commandAccessEnd data a ok s) s)

/-! ### The timebase (R191) -/

/-- One microsecond passes: the timebase advances by 1 and wraps (R191), and an expiry that came together
with the end of an attempt can no longer be taken (log entry 57); held in link reset the timebase stays
0 (R197). -/
def tickTimebase (s : State) : State :=
  if s.link.linkReset then s else
    { s with timebase := s.timebase + 1, ports := s.ports.map fun P => { P with tied := [] } }

end Sys2Proof.Machine
end

