-- ==== Sys2Proof/Machine/Dispatch.lean ====
section
/-! DEFINITION. One arm per command: a direct call of its meaning. -/

namespace Sys2Proof.Machine

def exec (i : Instr) (s : State) : Host.Outcome State Fault Refusal :=
  match i with
  | .powerOnReset => Sys2Proof.Machine.execPowerOnReset s
  | .linkReset => Sys2Proof.Machine.execLinkReset s
  | .softReset en => Sys2Proof.Machine.execSoftReset en s
  | .controllerEnable => Sys2Proof.Machine.execControllerEnable s
  | .controllerStop => Sys2Proof.Machine.execControllerStop s
  | .stopComplete => Sys2Proof.Machine.execStopComplete s
  | .gsrStrayClear value => Sys2Proof.Machine.execGsrStrayClear value s
  | .isrClear value => Sys2Proof.Machine.execIsrClear value s
  | .imrWrite value => Sys2Proof.Machine.execImrWrite value s
  | .registerWrite offset nbytes value => Sys2Proof.Machine.execRegisterWrite offset nbytes value s
  | .mqPostedNotify count => Sys2Proof.Machine.execMqPostedNotify count s
  | .rqPostedNotify q count => Sys2Proof.Machine.execRqPostedNotify q count s
  | .receiveRingPostedNotify count => Sys2Proof.Machine.execReceiveRingPostedNotify count s
  | .mcqConsumedNotify count => Sys2Proof.Machine.execMcqConsumedNotify count s
  | .cqConsumedNotify n count => Sys2Proof.Machine.execCqConsumedNotify n count s
  | .strayNotify side index count => Sys2Proof.Machine.execStrayNotify side index count s
  | .busMasteringChange enable => Sys2Proof.Machine.execBusMasteringChange enable s
  | .accessTimeout k => Sys2Proof.Machine.execAccessTimeout k s
  | .headerReadEnd ok data => Sys2Proof.Machine.execHeaderReadEnd ok data s
  | .mqEntryTake => Sys2Proof.Machine.execMqEntryTake s
  | .mqEntryReadEnd ok data => Sys2Proof.Machine.execMqEntryReadEnd ok data s
  | .mqStatusWordWriteEnd ok => Sys2Proof.Machine.execMqStatusWordWriteEnd ok s
  | .unknownCommand => Sys2Proof.Machine.execUnknownCommand s
  | .identify => Sys2Proof.Machine.execIdentify s
  | .createCompletionQueue => Sys2Proof.Machine.execCreateCompletionQueue s
  | .deleteCompletionQueue => Sys2Proof.Machine.execDeleteCompletionQueue s
  | .createRequestQueue => Sys2Proof.Machine.execCreateRequestQueue s
  | .deleteRequestQueue => Sys2Proof.Machine.execDeleteRequestQueue s
  | .configurePort => Sys2Proof.Machine.execConfigurePort s
  | .enablePort => Sys2Proof.Machine.execEnablePort s
  | .disablePort => Sys2Proof.Machine.execDisablePort s
  | .restartPort => Sys2Proof.Machine.execRestartPort s
  | .setReceiveRing => Sys2Proof.Machine.execSetReceiveRing s
  | .writeImage => Sys2Proof.Machine.execWriteImage s
  | .setReply => Sys2Proof.Machine.execSetReply s
  | .defineTrigger => Sys2Proof.Machine.execDefineTrigger s
  | .enableTriggers alerts => Sys2Proof.Machine.execEnableTriggers alerts s
  | .disableTriggers => Sys2Proof.Machine.execDisableTriggers s
  | .clearTrigger => Sys2Proof.Machine.execClearTrigger s
  | .queryTrigger => Sys2Proof.Machine.execQueryTrigger s
  | .setTick => Sys2Proof.Machine.execSetTick s
  | .abort => Sys2Proof.Machine.execAbort s
  | .readPortStatistics => Sys2Proof.Machine.execReadPortStatistics s
  | .commandHostAccessEnd ok data => Sys2Proof.Machine.execCommandHostAccessEnd ok data s
  | .mcqWriteSequence => Sys2Proof.Machine.execMcqWriteSequence s
  | .eventRecord l => Sys2Proof.Machine.execEventRecord l s
  | .mcqRecordWriteEnd ok => Sys2Proof.Machine.execMcqRecordWriteEnd ok s
  | .mcqStatusWordWriteEnd ok => Sys2Proof.Machine.execMcqStatusWordWriteEnd ok s
  | .fetchTurn => Sys2Proof.Machine.execFetchTurn s
  | .rqEntryReadEnd ok data => Sys2Proof.Machine.execRqEntryReadEnd ok data s
  | .rqStatusWordWriteEnd q k ok => Sys2Proof.Machine.execRqStatusWordWriteEnd q k ok s
  | .dispatch p => Sys2Proof.Machine.execDispatch p s
  | .stagingReadEnd p ok data => Sys2Proof.Machine.execStagingReadEnd p ok data s
  | .attemptBegin p => Sys2Proof.Machine.execAttemptBegin p s
  | .masterStart p won => Sys2Proof.Machine.execMasterStart p won s
  | .masterAddressByte p ack => Sys2Proof.Machine.execMasterAddressByte p ack s
  | .masterDataByteSent p ack => Sys2Proof.Machine.execMasterDataByteSent p ack s
  | .masterByteReceived p byte => Sys2Proof.Machine.execMasterByteReceived p byte s
  | .countByte p n => Sys2Proof.Machine.execCountByte p n s
  | .checkByte p ack byte => Sys2Proof.Machine.execCheckByte p ack byte s
  | .repeatedStart p won => Sys2Proof.Machine.execRepeatedStart p won s
  | .masterStopComplete p => Sys2Proof.Machine.execMasterStopComplete p s
  | .segmentOpen p => Sys2Proof.Machine.execSegmentOpen p s
  | .arbitrationLoss p place winner => Sys2Proof.Machine.execArbitrationLoss p place winner s
  | .retryGapExpiry p => Sys2Proof.Machine.execRetryGapExpiry p s
  | .deadlineExpiry k => Sys2Proof.Machine.execDeadlineExpiry k s
  | .drainingWriteEnd p ok => Sys2Proof.Machine.execDrainingWriteEnd p ok s
  | .recordSelection => Sys2Proof.Machine.execRecordSelection s
  | .recordWriteEnd ok => Sys2Proof.Machine.execRecordWriteEnd ok s
  | .cqStatusWordWriteEnd n k ok => Sys2Proof.Machine.execCqStatusWordWriteEnd n k ok s
  | .coalescingTimerExpiry n => Sys2Proof.Machine.execCoalescingTimerExpiry n s
  | .busStartSeen p => Sys2Proof.Machine.execBusStartSeen p s
  | .busStopSeen p => Sys2Proof.Machine.execBusStopSeen p s
  | .idleTimeExpiry p => Sys2Proof.Machine.execIdleTimeExpiry p s
  | .clockLowTimeout p => Sys2Proof.Machine.execClockLowTimeout p s
  | .stuckDataTimeout p => Sys2Proof.Machine.execStuckDataTimeout p s
  | .recoverySclHigh p sdaHigh => Sys2Proof.Machine.execRecoverySclHigh p sdaHigh s
  | .recoveryPulse p sdaHigh => Sys2Proof.Machine.execRecoveryPulse p sdaHigh s
  | .recoveryStop p sclRose sdaRose => Sys2Proof.Machine.execRecoveryStop p sclRose sdaRose s
  | .recoveryFinalWaitEnd p => Sys2Proof.Machine.execRecoveryFinalWaitEnd p s
  | .restartIdleWaitEnd p => Sys2Proof.Machine.execRestartIdleWaitEnd p s
  | .recoveryLimitExpiry p sclHigh => Sys2Proof.Machine.execRecoveryLimitExpiry p sclHigh s
  | .addressByte p byte => Sys2Proof.Machine.execAddressByte p byte s
  | .imageWriteByte p byte => Sys2Proof.Machine.execImageWriteByte p byte s
  | .mailboxWriteByte p byte => Sys2Proof.Machine.execMailboxWriteByte p byte s
  | .imageReadByte p ack => Sys2Proof.Machine.execImageReadByte p ack s
  | .replyReadByte p ack => Sys2Proof.Machine.execReplyReadByte p ack s
  | .targetReadConflict p => Sys2Proof.Machine.execTargetReadConflict p s
  | .targetTransferEnd p ending => Sys2Proof.Machine.execTargetTransferEnd p ending s
  | .stretchLimitExpiry p => Sys2Proof.Machine.execStretchLimitExpiry p s
  | .targetDrainEnd p ok => Sys2Proof.Machine.execTargetDrainEnd p ok s
  | .receiveFetchStart => Sys2Proof.Machine.execReceiveFetchStart s
  | .receiveFetchEnd ok data => Sys2Proof.Machine.execReceiveFetchEnd ok data s
  | .receiveStatusWordWriteEnd k ok => Sys2Proof.Machine.execReceiveStatusWordWriteEnd k ok s
  | .tick alerts => Sys2Proof.Machine.execTick alerts s
  | .periodicExpiry t => Sys2Proof.Machine.execPeriodicExpiry t s
  | .endOfHoldoff t alertLow => Sys2Proof.Machine.execEndOfHoldoff t alertLow s
  | .alertFallingTransition p => Sys2Proof.Machine.execAlertFallingTransition p s
  | .linkResetDeasserted => Sys2Proof.Machine.execLinkResetDeasserted s
  | .controllerStatusWordWriteEnd k ok => Sys2Proof.Machine.execControllerStatusWordWriteEnd k ok s

end Sys2Proof.Machine
end

