-- ==== Sys2Proof/Safety.lean ====
section
/-! DEFINITION. What a run of the part may be relied on for, and the situations a command is stated in,
in the terms the statements use. -/

namespace Sys2Proof.Machine

/-! ### Situations -/

/-- The part is not held in link reset (R197). -/
abbrev Awake (s : State) : Prop := s.link.linkReset = false

/-- The part is not held in link reset and the controller is RUNNING. -/
abbrev Running (s : State) : Prop := s.link.linkReset = false ∧ s.link.ctrl = .running

/-- The part is not held in link reset and the controller is RUNNING or HALTED: rings exist (R190). -/
abbrev Live (s : State) : Prop :=
  s.link.linkReset = false ∧ (s.link.ctrl = .running ∨ s.link.ctrl = .halted)

/-- The management unit holds the command of the entry `e`, whose opcode is `op`, and is to execute it
(R169, R170). -/
abbrev Executing (op : Byte) (e : List Byte) (s : State) : Prop :=
  Running s ∧ s.mgmt.command = some { entry := e, phase := .execute } ∧ opcode e = op

/-- The command of `e` completes: the command held becomes none and its record is due (R170, R172). -/
def answered (e : List Byte) (status : Status) (a b : Word) (s : State) : State :=
  { s with
    mgmt := { s.mgmt with
      command := none, due := some (completionRecord e status a b s.timebase) } }

/-- The command row `c` answers the command of `e` with a status and values 0, and changes nothing else. -/
def Answers (c : Instr) (e : List Byte) (status : Status) (s : State) : Prop :=
  exec c s = .next (answered e status 0 0 s)

/-- The command of `e` goes on to `phase`. -/
def waitsAt (e : List Byte) (phase : CmdPhase) (s : State) : State :=
  { s with mgmt := { s.mgmt with command := some { entry := e, phase := phase } } }

/-- `a` is the access in flight that `k` others of those `kind` names precede, in the order of issue;
`rest` are the others in flight, in their order. -/
def InFlight (kind : AccessKind → Bool) (k : Nat) (s : State) (a : Access) (rest : List Access) : Prop :=
  ∃ pre post, s.accesses = pre ++ a :: post ∧ rest = pre ++ post ∧ kind a.kind = true ∧
    pre.countP (fun b => kind b.kind) = k

/-- The access can end as `ok` says, bringing `got` bytes: it ends successfully only if it was issued
with bus mastering enabled, and as a read only with as many bytes as it asked for (R185). -/
def EndsAs (a : Access) (ok : Bool) (got : Nat) : Prop :=
  ok = true → a.doomed = false ∧ a.xfer.brings got = true

/-- The state with the accesses `rest` in flight. -/
def State.inFlight (s : State) (rest : List Access) : State := { s with accesses := rest }

/-- The state with one more access in flight, issued now (R185). -/
def State.issued (s : State) (kind : AccessKind) (x : Xfer) (forCommand : Bool) : State :=
  { s with
    accesses := s.accesses ++ [⟨kind, x, s.timebase, forCommand, !s.link.busMaster, false⟩] }

/-- The record of the transaction `t` can be handed to the holding list at once, and its leaving the list
of port `p` moves nothing else: its queue is RUNNING, the list has room, no queue holds a transaction,
and the port is not being disabled (R54, R111, R39). -/
def CanPost (s : State) (p : PortId) (t : Txn) : Prop :=
  (∃ q, t.origin = .rq q) ∧ (s.cq t.cq).state = .running ∧
    s.comp.holding.length < Config.holdingCapacity ∧ (∀ q, (s.rq q).hold = none) ∧
    (s.port p).disablePending = false

/-- Between `s` and `u` the record of the in-service transaction of port `p`, in slot `k`, was made from
`t` and entered the holding list, and the transaction left the port's list and was counted (R22, R54,
R62). -/
def RecordPosted (s u : State) (p : PortId) (k : SlotId) (t : Txn) : Prop :=
  u.comp = { s.comp with holding := s.comp.holding ++ [⟨txnRecord t, t.cq, t.req.notify, some k⟩] } ∧
    u.txn k = some { t with state := .recorded } ∧
    (u.port p).list = (s.port p).list.tail ∧ (u.port p).inService = none ∧
    (u.port p).pendingResult = none ∧
    (u.port p).stats.completed = (s.port p).stats.completed + 1 ∧ u.rqs = s.rqs ∧ u.cqs = s.cqs

/-- Between `s` and `u` the in-service transaction of port `p`, in slot `k` and from queue `q`, completed
without a record: its slot was released, its queue's open count fell, and it left the port's list and
was counted (R22, R36, R54, R62). -/
def Suppressed (s u : State) (p : PortId) (k : SlotId) (q : RqId) : Prop :=
  u.comp = s.comp ∧ u.ints = s.ints ∧ u.slots.get k = .free ∧
    u.rq q = { s.rq q with openCount := (s.rq q).openCount - 1 } ∧
    (u.port p).list = (s.port p).list.tail ∧ (u.port p).inService = none ∧
    (u.port p).stats.completed = (s.port p).stats.completed + 1

/-- Between `s` and `u` the transaction of port `p`, in slot `k`, went from its attempt to DRAINING as `t`:
its one draining write was issued, of the `bytes` received, each with its segment, and it stays in
service (R51, R53). -/
def Drains (s u : State) (p : PortId) (k : SlotId) (t : Txn) (bytes : List (Nat × Byte)) : Prop :=
  u.txn k = some { t with state := .draining } ∧
    u.accesses = s.accesses ++ [⟨.draining p, .write (drainParts t.req bytes), s.timebase, false,
      !s.link.busMaster, false⟩] ∧
    (u.port p).inService = some k ∧ (u.port p).list = (s.port p).list ∧ (u.port p).inbound = bytes ∧
    (u.port p).stats.completed = (s.port p).stats.completed ∧ u.comp = s.comp ∧ u.rqs = s.rqs ∧
    u.cqs = s.cqs ∧ ∀ j, j ≠ k → u.txn j = s.txn j

/-- Between `s` and `u` the stop request `r`, taken in OPENING before a START was made or in BETWEEN, ended
the attempt of the transaction `t` of port `p`, in slot `k`, at once (R82): in OPENING now, with the port
IDLE, and in BETWEEN at the STOP that closed the segment before, for the segment that was waiting to
open. -/
def StoppedAtOnce (r : StopResult) (s u : State) (p : PortId) (k : SlotId) (t : Txn) : Prop :=
  let E := (s.port p).eng
  let between : Bool := E.phase == .between
  let ended : Word := if between then E.closedAt else s.timebase
  let done : Txn := { t with
    state := .posting, started := some (t.started.getD ended), result := r.result, detail := 0,
    segIndex := if between then E.segment + 1 else E.segment, writeCount := E.writeCount,
    readCount := E.readCount, endTime := ended }
  (u.port p).eng = Engine.reset ∧
    (u.port p).state = (if between then (s.port p).state else .idle) ∧
    (u.port p).tied =
      (if between then (s.port p).tied else (s.port p).tied ++ s.timeoutsReached p) ∧
    (E.readCount = 0 → RecordPosted s u p k done) ∧
    (E.readCount ≠ 0 → Drains s u p k done (s.port p).inbound)

/-- Between `s` and `u` port `p` entered OFF, as a port that was told to disable (R94): its lines are
released, its context is cleared, its settings and list stay, its buffer at hand is given back, and
DISABLE PORT completes when it waits for the port. -/
def SwitchedOff (s u : State) (p : PortId) : Prop :=
  (u.port p).state = .off ∧ (u.port p).sclDriven = false ∧ (u.port p).sdaDriven = false ∧
    (u.port p).busFree = false ∧ (u.port p).inStep = false ∧ (u.port p).eng = Engine.reset ∧
    (u.port p).recovery = .none ∧ (u.port p).tied = [] ∧ (u.port p).disablePending = false ∧
    (u.port p).tgt.transfer = .none ∧ (u.port p).tgt.atHand = .nothing ∧
    (u.port p).tgt.disableTold = false ∧ (u.port p).cfg = (s.port p).cfg ∧
    (u.port p).list = (s.port p).list ∧ (∀ q, q ≠ p → u.port q = s.port q) ∧
    (∀ e, s.mgmt.command = some { entry := e, phase := .port p .disable } →
      u.mgmt.command = none ∧ u.mgmt.due = some (completionRecord e .success 0 0 s.timebase)) ∧
    ((s.port p).tgt.records = [] → (s.port p).tgt.transfer ≠ .mailboxWrite →
      ((s.port p).tgt.atHand.buffer = none → u.comp = s.comp) ∧
      ∀ b, (s.port p).tgt.atHand = .present b → (s.cq b.cq).state = .running →
        s.comp.holding.length < Config.holdingCapacity →
        u.comp = { s.comp with
          holding := s.comp.holding ++ [⟨unusedRecord p b s.timebase, b.cq, false, none⟩] })

/-- An engine that a controller stop or a halt finds with nothing driven ends its attempt there: in
OPENING before a START, or in BETWEEN (R85). -/
def Engine.endsAtOnce (E : Engine) : Prop :=
  E.phase = .between ∨ E.phase = .opening ∧ E.restart = false

/-- What the entry to HALTED makes of port `p` between `s` and `u` (R85, R94, R102, R165): a recovery is
abandoned and a target transfer ends; the engine ends its attempt, or goes on to its byte-boundary stop
without an outcome; a port told to disable enters OFF. -/
def PortHalted (s u : State) (p : PortId) : Prop :=
  let P := s.port p
  let Q := u.port p
  let E := P.eng
  Q.cfg = P.cfg ∧ Q.list = P.list ∧ Q.inService = P.inService ∧ Q.recovery = .none ∧
    Q.tgt.transfer = .none ∧
    (E.endsAtOnce → ∀ k t, P.inService = some k → s.txn k = some t →
      u.txn k = some { t with state := .ready }) ∧
    (P.tgt.disableTold = true → Q.state = .off ∧ Q.sclDriven = false ∧ Q.sdaDriven = false ∧
      Q.eng = Engine.reset ∧ Q.disablePending = false ∧ Q.tgt.atHand = .nothing) ∧
    (P.tgt.disableTold = false →
      Q.busFree = P.busFree ∧ Q.inStep = P.inStep ∧ Q.disablePending = P.disablePending ∧
      Q.tgt.atHand = P.tgt.atHand ∧
      Q.state = (if E.phase = .opening ∧ E.restart = false then .idle
        else if P.state = .target then .observing else P.state) ∧
      (E.phase = .none → Q.eng = E ∧ Q.sclDriven = false ∧ Q.sdaDriven = false) ∧
      (E.endsAtOnce → Q.eng = Engine.reset ∧ Q.sclDriven = false ∧ Q.sdaDriven = false) ∧
      (E.phase = .opening → E.restart = true → Q.eng = { E with
        phase := .closing, segment := E.segment + 1, restart := false, quiet := true }) ∧
      (E.phase ∉ [Phase.none, .between, .opening] → Q.eng = { E with quiet := true } ∧
        (P.tgt.transfer = .none → Q.sclDriven = P.sclDriven ∧ Q.sdaDriven = P.sdaDriven)) ∧
      ((∀ o n d, P.tgt.transfer ≠ .replyRead o n d) → P.tgt.transfer ≠ .mailboxWrite →
        Q.stats = P.stats ∧ Q.tgt.staging = P.tgt.staging) ∧
      (∀ m, P.tgt.transfer = .mailboxWrite → P.tgt.staging = .filling m → m.bytes ≠ [] →
        Q.tgt.staging = .draining
          { m with endTime := s.timebase, endedByRestart := false, abandoned := true } ∧
        ⟨.targetDrain p, .write [(m.buffer.addr, m.bytes)], s.timebase, false, !s.link.busMaster,
          false⟩ ∈ u.accesses) ∧
      (∀ o d i offset bytes, P.tgt.transfer = .imageRead o d →
        P.tgt.held = some (.image i offset bytes) → Q.tgt.held = none ∧
          Q.tgt.images = upd P.tgt.images i fun x => overlay x offset bytes) ∧
      (∀ o pos d, P.tgt.transfer = .replyRead o pos d →
        (pos < (P.tgt.replies.get o).bytes.length → P.tgt.held = none →
          Q.tgt.replies = upd P.tgt.replies o fun r => { r with state := .loaded }) ∧
        ((P.tgt.replies.get o).bytes.length ≤ pos → P.tgt.held = none →
          Q.tgt.replies = upd P.tgt.replies o fun _ => { state := .empty, bytes := [] }) ∧
        ((P.tgt.replies.get o).bytes.length ≤ pos →
          Q.stats = { P.stats with repliesTaken := P.stats.repliesTaken + 1 } ∧
          ∃ x ∈ u.mgmt.latches, x.latch = .replyTaken p o) ∧
        ∀ bytes, P.tgt.held = some (.reply o bytes) →
          Q.tgt.held = none ∧ (Q.tgt.replies.get o) = { state := .loaded, bytes := bytes }))

/-- The entry to HALTED, from `s` to `u`, with its fault (R194): GSR and ISR show it and the controller
status word is written, before anything else is; the command in hand and a completion due are dropped, an
MCQ fault ends the MCQ's writing, and a queue left DELETING has no command to complete (R173); the
prescaler stops and the entries keep what they have (R143); every port takes it as `PortHalted` says, and
no other transaction, queue or ring changes. -/
def HaltTaken (f : HaltFault) (s u : State) : Prop :=
  u.link = { s.link with ctrl := .halted, haltFault := f } ∧ u.timebase = s.timebase ∧
    u.ints.isr = s.ints.isr ||| 0x80 ∧ u.ints.imr = s.ints.imr ∧
    (∃ later, u.accesses = s.accesses ++ ⟨.controllerStatus,
      .write [(s.statusSlot 15, controllerStatusWord u.link s.timebase)], s.timebase, false,
      !s.link.busMaster, false⟩ :: later) ∧
    u.mgmt.command = none ∧ u.mgmt.due = none ∧
    (f ≠ .mqFetch → f ≠ .mqCount → u.mgmt.muted = true) ∧
    (f = .mqFetch ∨ f = .mqCount → u.mgmt.muted = s.mgmt.muted) ∧
    (∀ x ∈ s.mgmt.latches, x ∈ u.mgmt.latches) ∧
    u.trig = { s.trig with prescaler := none, tickDue := [] } ∧ u.rx = s.rx ∧ u.cqs = s.cqs ∧
    u.fetch = s.fetch ∧ u.comp.writer = s.comp.writer ∧
    (∀ q, u.rq q = { s.rq q with deletePending := false }) ∧
    (∀ k, (∀ p, (s.port p).inService = some k → ¬ (s.port p).eng.endsAtOnce) → u.txn k = s.txn k) ∧
    ∀ p, PortHalted s u p

/-- Nothing but the transaction moves when it leaves the list of port `p`: no queue holds one, and no
disable is pending (R39, R59). -/
def LeavesAlone (s : State) (p : PortId) : Prop :=
  (∀ q, (s.rq q).hold = none) ∧ (s.port p).disablePending = false

/-- The command `c` ends the access `a` as failed, where no access of its kind was issued before it:
the row of the block that issued it (R185's table). -/
def FailingEnd (a : Access) : Instr → Prop
  | .headerReadEnd ok _ => ok = false ∧ a.kind = .header
  | .controllerStatusWordWriteEnd k ok => ok = false ∧ k = 0 ∧ a.kind = .controllerStatus
  | .mqEntryReadEnd ok _ => ok = false ∧ a.kind = .mqEntry
  | .mqStatusWordWriteEnd ok => ok = false ∧ ∃ b, a.kind = .mqStatus b
  | .mcqRecordWriteEnd ok => ok = false ∧ a.kind = .mcqRecord
  | .mcqStatusWordWriteEnd ok => ok = false ∧ ∃ b, a.kind = .mcqStatus b
  | .commandHostAccessEnd ok _ => ok = false ∧ a.forCommand = true ∧
      (a.kind = .cmdRead ∨ a.kind = .cmdWrite ∨ a.kind = .rxStatus ∨ (∃ q, a.kind = .rqStatus q) ∨
        ∃ n why, a.kind = .cqStatus n why)
  | .rqEntryReadEnd ok _ => ok = false ∧ ∃ q, a.kind = .rqEntry q
  | .rqStatusWordWriteEnd q k ok => ok = false ∧ k = 0 ∧ a.kind = .rqStatus q
  | .stagingReadEnd p ok _ => ok = false ∧ a.kind = .staging p
  | .drainingWriteEnd p ok => ok = false ∧ a.kind = .draining p
  | .recordWriteEnd ok => ok = false ∧ a.kind = .cqRecord
  | .cqStatusWordWriteEnd n k ok => ok = false ∧ k = 0 ∧ ∃ why, a.kind = .cqStatus n why
  | .receiveFetchEnd ok _ => ok = false ∧ a.kind = .rxEntry
  | .receiveStatusWordWriteEnd k ok => ok = false ∧ k = 0 ∧ a.kind = .rxStatus
  | .targetDrainEnd p ok => ok = false ∧ a.kind = .targetDrain p
  | _ => False

/-- Every condition that a message to port `p` misses is on its way (R155). -/
def MessageComing (s : State) (p : PortId) : Prop :=
  let T := (s.port p).tgt
  ((∃ x, T.atHand = .present x) ∨ T.atHand = .fetching ∨
      T.atHand = .wanted ∧ s.rx.state = .running ∧ s.rx.posted ≠ s.rx.taken) ∧
    (T.staging = .free ∨ ∃ m, T.staging = .draining m)

/-- What `u` makes of port `p` when the mailbox decision that waits there in `s` is taken again (R155,
R156): with the buffer PRESENT and staging FREE the address is acknowledged and the message starts; while
what is missing is on its way the port goes on holding SCL; otherwise the address is refused, and the
refusal is counted for its one reason. With no decision waiting the port is as it was. -/
def DecidesAgain (s u : State) (p : PortId) : Prop :=
  let P := s.port p
  let decided (f : Port → Port) : Port := f { P with
    sclDriven := false, idleFrom := s.timebase, clockLowFrom := s.timebase,
    stuckDataFrom := s.timebase }
  let refused (count : Stats → Stats) : Port := decided fun P => { P with
    state := .observing, lastAck := some false, stats := count P.stats,
    tgt := { P.tgt with transfer := .refused } }
  ((∀ who addr since, P.tgt.transfer ≠ .deciding who addr since) → u.port p = P) ∧
  ∀ who addr since, P.tgt.transfer = .deciding who addr since →
    (∀ b, P.tgt.atHand = .present b → P.tgt.staging = .free → u.port p = decided fun P => { P with
      state := .target, lastAck := some true,
      tgt := { P.tgt with
        transfer := .mailboxWrite, atHand := .wanted,
        staging := .filling
          { buffer := b, who := who, addr := addr, addrTime := s.timebase, endTime := s.timebase,
            bytes := [], truncated := false, endedByRestart := false, abandoned := false } } }) ∧
    (MessageComing s p → (P.tgt.staging = .free → ∀ b, P.tgt.atHand ≠ .present b) →
      u.port p = { P with state := .target, sclDriven := true }) ∧
    (¬ MessageComing s p →
      ((∃ b, P.tgt.atHand = .present b) →
        u.port p = refused fun c => { c with refusedBusy := c.refusedBusy + 1 }) ∧
      ((∀ b, P.tgt.atHand ≠ .present b) →
        u.port p = refused (fun c => { c with refusedNoBuffer := c.refusedNoBuffer + 1 }) ∧
        ∃ x ∈ u.mgmt.latches, x.latch = .ringEmpty p))

/-- What the entry of port `p` to FAULTED, between `s` and `u`, does to its in-service transaction `t` in
slot `k` (R60): STAGING gets the pending result BUS_FAULT, unless one is set; READY and RETRY_WAIT end
BUS_FAULT; in DRAINING and POSTING nothing changes. -/
def FaultEndsService (reason : FaultReason) (s u : State) (p : PortId) (k : SlotId) (t : Txn) : Prop :=
  let stays : Prop := u.txn k = some t ∧ (u.port p).inService = some k ∧
    (u.port p).list = (s.port p).list
  (t.state = .staging → stays ∧ (u.port p).pendingResult =
    if (s.port p).pendingResult = none then some (.busFault, reason.code)
    else (s.port p).pendingResult) ∧
  (t.state = .draining ∨ t.state = .posting → stays ∧
    (u.port p).pendingResult = (s.port p).pendingResult) ∧
  (t.state = .ready ∨ t.state = .retryWait → CanPost s p t → RecordPosted s u p k { t with
    state := .posting, result := .busFault, detail := reason.code, segIndex := 0, writeCount := 0,
    readCount := 0, endTime := s.timebase })

/-- Whether a mailbox decision waits (R155). -/
def Transfer.isDeciding : Transfer → Bool
  | .deciding _ _ _ => true
  | _ => false

/-! ### Invariants -/

/-- The registers of the host link agree with the controller state, whatever has been written to them:
EN reads 1 exactly in STARTING, RUNNING and HALTED (R188), the low 8 bits of SBL read 0 (R187), and
ISR bits 5 and 6 read 0 (R118). -/
def RegistersWellFormed (s : State) : Prop :=
  (s.link.en = true ↔
    (s.link.ctrl = .starting ∨ s.link.ctrl = .running ∨ s.link.ctrl = .halted)) ∧
  s.link.sbl.extractLsb' 0 8 = 0#8 ∧
  s.ints.isr.getLsbD 5 = false ∧ s.ints.isr.getLsbD 6 = false

/-- At most 32 records are in the holding list (R110). -/
def HoldingBounded (s : State) : Prop := s.comp.holding.length ≤ Config.holdingCapacity

/-- At most 32 transactions are in the pending list of each port (R44). -/
def ListsBounded (s : State) : Prop := ∀ p, (s.port p).list.length ≤ Config.listCapacity

/-- The in-service transaction of a port, when there is one, is the first of its list (R47). -/
@[simp] def Port.servesFirst (P : Port) : Prop := ∀ k, P.inService = some k → P.list.head? = some k

/-- Every port's in-service transaction is the first of its list (R47). -/
def ServedIsFirst (s : State) : Prop := ∀ p, (s.port p).servesFirst

/-- Whether a transaction was taken from a request queue. -/
def Origin.isRequest : Origin → Bool
  | .rq _ => true
  | .trigger _ => false

/-- A request slot holds only transactions of request queues and a trigger slot only instances, and
the slot reserved for an entry read is a request slot (R32, R34). -/
def SlotKinds (s : State) : Prop :=
  (∀ k t, s.txn k = some t → t.origin.isRequest = decide (k.val < Config.requestSlots)) ∧
  ∀ tn, s.fetch.turn = some tn → tn.slot.val < Config.requestSlots

/-- Until the controller is RUNNING for the first time after a reset or a stop, everything has its reset
value but the link registers and the controller state, ISR and IMR, the timebase, the ALERT# levels and
the queue of commands, and nothing is in flight but the header read (R193, R196, R197). -/
def RestsUntilRunning (s : State) : Prop :=
  (s.link.ctrl = .disabled ∨ s.link.ctrl = .starting) →
    s = { State.reset with
      pending := s.pending, link := s.link, ints := s.ints, timebase := s.timebase,
      accesses := s.accesses, trig := { State.reset.trig with alertLow := s.trig.alertLow } } ∧
    ∀ a ∈ s.accesses, a.kind = .header

end Sys2Proof.Machine
end

