-- ==== Sys2Proof/Certificates/Slice0/Obligations.lean ====
section
/-! DEFINITION. The statements for the provers. Each docstring names the rules a statement comes from; a
clause that is the model's own choice names its log entry. `answered`, `waitsAt`, `issued`, `inFlight`,
`InFlight` and `EndsAs` are in Safety.lean. -/

open Sys2Proof Sys2Proof.Machine

/-! ### The machine -/

/-- A step takes the command at the front of the queue and runs it on the state with the queue's rest. -/
def Obligations.StepRunsFrontCommand : Prop :=
  ∀ (c : Instr) (rest : List Instr) (s : State), s.pending = c :: rest →
    step s = exec c { s with pending := rest }

/-- With no command waiting a step lets one microsecond pass: the timebase advances by 1 and wraps
(R191), an expiry that came together with the end of an attempt can no longer be taken (log entry 57),
and nothing else changes; in link reset it stays (R197). Log entry 10: the model's choice. -/
def Obligations.IdleStepPassesOneMicrosecond : Prop :=
  ∀ s : State, s.pending = [] →
    (s.link.linkReset = false → step s = .next
      { s with
        timebase := s.timebase + 1, ports := s.ports.map fun P => { P with tied := [] } }) ∧
    (s.link.linkReset = true → step s = .next s)

/-- No step ends in a fault or a refusal: every command and event is taken in every state, one whose
condition does not hold changing nothing (log entry 7), and none changes the queue of the commands that
wait, not even a reset or the end of a stop (log entry 1). Both are the model's choice. -/
def Obligations.EveryStepCompletes : Prop :=
  (∀ (c : Instr) (s : State), ∃ t, exec c s = .next t ∧ t.pending = s.pending) ∧
  ∀ s : State, ∃ t, step s = .next t ∧ t.pending = s.pending.tail

/-- What the spec gives for a reset: the registers read their Reset values (R186, R187), the queues and
the ring are ABSENT, all 64 slots are free (R34), the ports are OFF and not in step, the table is
EMPTY, the prescaler value is 999 (R125), the timebase is 0 and the controller DISABLED (R197). That
the queue of commands is empty is the model's choice (log entry 1). -/
def Obligations.ResetValues : Prop :=
  (∀ n ∈ [(0x000, (0xA5D32402 : Word)), (0x004, 0), (0x008, 0), (0x00C, 0), (0x010, 0), (0x014, 0),
      (0x018, 0), (0x01C, 0xFF)], readRegister n.1 State.reset = n.2) ∧
  State.reset.link.ctrl = .disabled ∧ State.reset.link.busMaster = false ∧
  State.reset.timebase = 0 ∧ State.reset.accesses = [] ∧
  (∀ q, (State.reset.rq q).state = .absent ∧ (State.reset.rq q).weight = 1) ∧
  (∀ n, (State.reset.cq n).state = .absent ∧ (State.reset.cq n).k = 1 ∧ (State.reset.cq n).l = 0) ∧
  State.reset.rx.state = .absent ∧ State.reset.comp.holding = [] ∧
  State.reset.comp.writer = .idle ∧ State.reset.fetch.lastServed = 7 ∧
  (∀ k, State.reset.slots.get k = .free) ∧
  (∀ p, (State.reset.port p).state = .off ∧ (State.reset.port p).list = [] ∧
    (State.reset.port p).inService = none ∧ (State.reset.port p).inStep = false ∧
    (State.reset.port p).sclDriven = false ∧ (State.reset.port p).sdaDriven = false ∧
    (State.reset.port p).eng.phase = .none ∧ (State.reset.port p).cfg.busTimeout = 25 ∧
    (State.reset.port p).cfg.idleTime = 5 ∧ (State.reset.port p).cfg.stretch = 10) ∧
  (∀ t, (State.reset.trigger t).state = .empty) ∧ State.reset.trig.tp = 999 ∧
  State.reset.trig.prescaler = none ∧ State.reset.mgmt.command = none ∧
  State.reset.mgmt.latches = [] ∧ State.reset.pending = []

/-- The invariants hold right after reset. -/
def Obligations.InvariantsHoldAtReset : Prop :=
  RegistersWellFormed State.reset ∧ HoldingBounded State.reset ∧ ListsBounded State.reset ∧
    ServedIsFirst State.reset ∧ SlotKinds State.reset ∧ RestsUntilRunning State.reset

/-- Every step keeps the registers in agreement with the controller: EN reads 1 exactly in STARTING,
RUNNING and HALTED (R188), the low 8 bits of SBL read 0 (R187), ISR bits 5 and 6 read 0 (R118). -/
def Obligations.RegistersStayWellFormed : Prop :=
  ∀ s t : State, RegistersWellFormed s → step s = .next t → RegistersWellFormed t

/-- Every step keeps the holding list at 32 records at most (R110), every pending list at 32
transactions at most (R44) with the in-service transaction, when there is one, as its first (R47), and
request slots for transactions of request queues and trigger slots for instances (R34). Until the
controller is RUNNING, all but the link registers, ISR and IMR, the timebase, the ALERT# levels, the
queue of commands and the header read in flight is at its reset value (R193, R196, R197). -/
def Obligations.ListsAndSlotsStayBounded : Prop :=
  ∀ s t : State, step s = .next t →
    (HoldingBounded s → HoldingBounded t) ∧ (ListsBounded s → ListsBounded t) ∧
    (ServedIsFirst s → ServedIsFirst t) ∧ (SlotKinds s → SlotKinds t) ∧
    (RestsUntilRunning s → RestsUntilRunning t)

/-- The controller changes its state only as chapter 10 gives: DISABLED to STARTING, STARTING to RUNNING
or HALTED, RUNNING to HALTED, each of these three to STOPPING, STOPPING to DISABLED, and to DISABLED by
a reset (R188, R193 to R197). -/
def Obligations.ControllerMovesAsGiven : Prop :=
  ∀ (c : Instr) (s t : State), exec c s = .next t →
    t.link.ctrl = s.link.ctrl ∨
    (s.link.ctrl = .disabled ∧ t.link.ctrl = .starting) ∨
    (s.link.ctrl = .starting ∧ t.link.ctrl = .running) ∨
    ((s.link.ctrl = .starting ∨ s.link.ctrl = .running) ∧ t.link.ctrl = .halted) ∨
    ((s.link.ctrl = .starting ∨ s.link.ctrl = .running ∨ s.link.ctrl = .halted) ∧
      t.link.ctrl = .stopping) ∨
    (s.link.ctrl = .stopping ∧ t.link.ctrl = .disabled) ∨
    (t.link.ctrl = .disabled ∧ t.timebase = 0)

/-- No command sets the timebase but a reset, which sets it to 0 (R191). The mask changes only by a
write to IMR, or to FFh by a reset (R119). A set ISR bit stays set until the host writes 1 to it, a stop
completes or a reset takes place (R118). -/
def Obligations.RegistersChangeAsGiven : Prop :=
  ∀ (c : Instr) (s t : State), exec c s = .next t →
    (t.timebase = s.timebase ∨
      (t.timebase = 0 ∧
        (c = .powerOnReset ∨ c = .linkReset ∨ (∃ en, c = .softReset en) ∨
          ∃ v : Word, c = .registerWrite 0x004 4 v ∧ v.getLsbD 1 = true))) ∧
    (t.ints.imr = s.ints.imr ∨ (t.ints.imr = 0xFF ∧ t.timebase = 0) ∨
      ∃ v : Word, t.ints.imr = v.extractLsb' 0 8 ∧ (c = .imrWrite v ∨ c = .registerWrite 0x01C 4 v)) ∧
    ∀ i, s.ints.isr.getLsbD i = true →
      t.ints.isr.getLsbD i = true ∨ t.link.ctrl = .disabled ∨
      ∃ v : Word, v.getLsbD i = true ∧ (c = .isrClear v ∨ c = .registerWrite 0x018 4 v)

/-- One message is sent each time the interrupt request rises while bus mastering is enabled, and none
otherwise, whatever command raises it; the resets, which clear ISR and restart the model's count of
messages (log entry 4), are left out (R119). -/
def Obligations.OneMessagePerRise : Prop :=
  ∀ (c : Instr) (s t : State), exec c s = .next t →
    c ≠ .powerOnReset → c ≠ .linkReset → (∀ en, c ≠ .softReset en) →
    (∀ v : Word, v.getLsbD 1 = true → c ≠ .registerWrite 0x004 4 v) →
    t.ints.sent = s.ints.sent +
      if !s.ints.request && t.ints.request && t.link.busMaster then 1 else 0

/-! ### Resets, start and stop (chapter 10) -/

/-- The resets set every piece of state to its reset value (R197); EN in the same write as a soft reset
is ignored (R188), and link reset is then held until the input is deasserted. The rest is the model's
choice: the queue of commands is kept (log entry 1); the setup block base is 0 (log entry 2); the ALERT#
levels, and at a power-on reset the link reset input, inputs of the part, are kept (log entry 3); the
count of messages sent starts again at 0 (log entry 4); a soft reset keeps the link configuration, with
bus mastering (log entry 32); while link reset is asserted nothing acts but power-on reset and the input
itself (log entry 33). -/
def Obligations.ResetsClearThePart : Prop :=
  (∀ (c : Instr) (s : State), s.link.linkReset = true → c ≠ .powerOnReset → c ≠ .linkReset →
    c ≠ .linkResetDeasserted → exec c s = .next s) ∧
  ∀ s : State,
    exec .powerOnReset s = .next
      { State.reset with
        pending := s.pending, link := { State.reset.link with linkReset := s.link.linkReset },
        trig := { State.reset.trig with alertLow := s.trig.alertLow } } ∧
    exec .linkReset s = .next
      { State.reset with
        pending := s.pending, link := { State.reset.link with linkReset := true },
        trig := { State.reset.trig with alertLow := s.trig.alertLow } } ∧
    exec .linkResetDeasserted s = .next { s with link := { s.link with linkReset := false } } ∧
    ∀ en, Awake s → exec (.softReset en) s = .next
      { State.reset with
        pending := s.pending, link := { State.reset.link with busMaster := s.link.busMaster },
        trig := { State.reset.trig with alertLow := s.trig.alertLow } }

/-- GCR (R188): SRST written 1 is a soft reset in every controller state, whatever EN says, and SRST
reads 0; EN 1 is the enable command, which starts the controller from DISABLED and has no effect in
any other state; EN 0 is the stop command, which stops it from STARTING, RUNNING and HALTED and has no
effect in the others. EN reads 1 exactly in those three states. That a REGISTER_WRITE to GCR acts as
these rows is the model's choice (log entry 39). -/
def Obligations.GcrWrites : Prop :=
  (∀ (s : State) (v : Word), Awake s →
    (v.getLsbD 1 = true → exec (.registerWrite 0x004 4 v) s = exec (.softReset (v.getLsbD 0)) s ∧
      exec (.softReset (v.getLsbD 0)) s = exec (.softReset false) s) ∧
    (v.getLsbD 1 = false → v.getLsbD 0 = true →
      exec (.registerWrite 0x004 4 v) s = exec .controllerEnable s ∧
      (s.link.ctrl = .disabled → ∃ t, exec (.registerWrite 0x004 4 v) s = .next t ∧
        t.link.ctrl = .starting ∧ t.link.en = true) ∧
      (s.link.ctrl ≠ .disabled → exec (.registerWrite 0x004 4 v) s = .next s)) ∧
    (v.getLsbD 1 = false → v.getLsbD 0 = false →
      exec (.registerWrite 0x004 4 v) s = exec .controllerStop s ∧
      ((s.link.ctrl = .starting ∨ s.link.ctrl = .running ∨ s.link.ctrl = .halted) →
        ∃ t, exec (.registerWrite 0x004 4 v) s = .next t ∧ t.link.ctrl = .stopping ∧
          t.link.en = false) ∧
      ((s.link.ctrl = .disabled ∨ s.link.ctrl = .stopping) →
        exec (.registerWrite 0x004 4 v) s = .next s))) ∧
  ∀ s : State, RegistersWellFormed s →
    ((readRegister 0x004 s).getLsbD 1 = false ∧
      ((readRegister 0x004 s).getLsbD 0 = true ↔
        (s.link.ctrl = .starting ∨ s.link.ctrl = .running ∨ s.link.ctrl = .halted)))

/-- The start (R188, R189, R193): from DISABLED the controller enters STARTING, EN becomes 1, the halt
fault is cleared, the address in SBH and SBL becomes the setup block base, and the 64 bytes of the
header are read from it; nothing else changes. In any other state the command is ignored. -/
def Obligations.EnableStarts : Prop :=
  ∀ s : State, Awake s →
    (s.link.ctrl = .disabled → exec .controllerEnable s = .next
      ({ s with
        link := { s.link with
          ctrl := .starting, en := true, haltFault := .nothing,
          setupBase := s.link.sbh ++ s.link.sbl } }.issued .header
        (.read [(s.link.sbh ++ s.link.sbl, 64)]) false)) ∧
    (s.link.ctrl ≠ .disabled → exec .controllerEnable s = .next s)

/-- The stop (R195): from STARTING, RUNNING and HALTED the controller enters STOPPING with EN 0, the
prescaler stops, every target transfer, recovery and restart is left, an attempt that has not begun a
START or that stands between segments ends, its transaction READY (R85), and a port with no attempt has
both lines released. The settings, the statistics, the queues, the registers and the timebase stay. In
DISABLED and STOPPING nothing happens. -/
def Obligations.StopLeavesTheBuses : Prop :=
  ∀ s : State, Awake s →
    ((s.link.ctrl = .starting ∨ s.link.ctrl = .running ∨ s.link.ctrl = .halted) →
      ∃ t, exec .controllerStop s = .next t ∧
        t = { s with
          link := { s.link with ctrl := .stopping, en := false },
          trig := { s.trig with prescaler := none, tickDue := [] }, ports := t.ports,
          slots := t.slots } ∧
        ∀ p, (t.port p).tgt.transfer = .none ∧ (t.port p).recovery = .none ∧
          (t.port p).state ≠ .target ∧ (t.port p).eng.phase ≠ .between ∧
          ((t.port p).eng.phase = .none →
            (t.port p).sclDriven = false ∧ (t.port p).sdaDriven = false) ∧
          ((s.port p).eng.phase = .between ∨
              (s.port p).eng.phase = .opening ∧ (s.port p).eng.restart = false →
            (t.port p).eng = Engine.reset ∧ ∀ k u, (s.port p).inService = some k →
              s.txn k = some u → t.txn k = some { u with state := .ready }) ∧
          (t.port p).cfg = (s.port p).cfg ∧ (t.port p).stats = (s.port p).stats ∧
          (t.port p).list = (s.port p).list) ∧
    ((s.link.ctrl = .disabled ∨ s.link.ctrl = .stopping) → exec .controllerStop s = .next s)

/-- The end of the stop (R195, R196): once every host access has ended and every port has released its
lines with no attempt in progress, the part is DISABLED with every piece of state at its
controller-stop value: IMR, SBL, SBH, the halt fault, stray-notify and the timebase stay. Before
that the command does nothing. What else stays is the model's choice: the queue of commands (log entry
1), the setup block base (log entry 2), the ALERT# levels (log entry 3), the count of messages sent
(log entry 4), bus mastering and the link reset input (log entry 32). -/
def Obligations.StopCompletes : Prop :=
  ∀ s : State, Awake s →
    (s.link.ctrl = .stopping ∧ s.accesses = [] ∧
        (∀ p, (s.port p).sclDriven = false ∧ (s.port p).sdaDriven = false ∧
          (s.port p).eng.phase = .none) →
      exec .stopComplete s = .next
        { State.reset with
          pending := s.pending, timebase := s.timebase,
          link := { s.link with ctrl := .disabled, en := false },
          ints := { s.ints with isr := 0 },
          trig := { State.reset.trig with alertLow := s.trig.alertLow } }) ∧
    (s.link.ctrl ≠ .stopping ∨ s.accesses ≠ [] ∨ (∃ p, (s.port p).sclDriven = true ∨
        (s.port p).sdaDriven = true ∨ (s.port p).eng.phase ≠ .none) →
      exec .stopComplete s = .next s)

/-- The end of the header read (R193, R194): a valid header takes the controller to RUNNING with the
bases and sizes of the management rings, and the MQ and controller status words are written; that the
MCQ status word follows only when that of the MQ has ended is the model's reading (log entry 15). An
invalid header halts the controller with START_INVALID, a failed read with SETUP_FAULT: ISR bit 7 is
set, with its message when it makes the request rise (R119), the controller status word is written, no
record is written to the MCQ any more (R173), and nothing else changes. The end of a controller status
word write changes nothing (R192). -/
def Obligations.HeaderReadDecidesTheStart : Prop :=
  ∀ (s : State) (a : Access) (rest : List Access) (ok : Bool) (h : Vector Byte 64), Awake s →
    (s.link.ctrl = .starting → InFlight (· == .header) 0 s a rest → EndsAs a ok 64 →
      (ok = true → headerOk h.toList = true →
        let u : State := { s with
          accesses := rest, link := { s.link with ctrl := .running },
          mgmt := { s.mgmt with
            mqBase := rd64 h.toList 0, mcqBase := rd64 h.toList 8, mqSize := rd16 h.toList 16,
            mcqSize := rd16 h.toList 18 } }
        exec (.headerReadEnd ok h) s = .next
          ((u.issued (.mqStatus true)
            (.write [(s.statusSlot 0, mgmtStatusWord s.mgmt.mqTaken s.timebase)]) false).issued
            .controllerStatus
            (.write [(s.statusSlot 15, controllerStatusWord u.link s.timebase)]) false)) ∧
      (RestsUntilRunning s →
        let halts (f : HaltFault) : State :=
          let u : State := { s with
            accesses := rest, link := { s.link with ctrl := .halted, haltFault := f },
            mgmt := { s.mgmt with muted := true },
            ints := { s.ints with
              isr := s.ints.isr ||| 0x80,
              sent := s.ints.sent +
                if s.ints.isr &&& ~~~ s.ints.imr = 0 ∧ (s.ints.isr ||| 0x80) &&& ~~~ s.ints.imr ≠ 0 ∧
                  s.link.busMaster = true then 1 else 0 } }
          u.issued .controllerStatus
            (.write [(s.statusSlot 15, controllerStatusWord u.link s.timebase)]) false
        (ok = true → headerOk h.toList = false →
          exec (.headerReadEnd ok h) s = .next (halts .startInvalid)) ∧
        (ok = false → exec (.headerReadEnd ok h) s = .next (halts .setupFault)))) ∧
    ∀ k, InFlight (· == .controllerStatus) k s a rest → EndsAs a ok 0 →
      exec (.controllerStatusWordWriteEnd k ok) s = .next (s.inFlight rest)

/-! ### Registers, interrupts and notifies (chapters 6 and 10) -/

/-- Writes of the register window (R186, R187): one to IDR is ignored; SBL takes all but its low 8 bits
and SBH all of a value, in every controller state, and nothing else changes. One to ISR clears the bits
written 1 and leaves the others (R118); one to IMR replaces all eight mask bits (R119). The interrupt
request is made by a set bit that is not masked; when such a write makes it rise, one message is sent,
unless bus mastering is disabled. A 1 to bit 16 of GSR clears stray-notify; a 0 leaves it (R189). A
write to NTF whose side and index name a ring is that ring's notify with the count written (R190).
Nothing else changes. That a write of other than 4 bytes, or to an offset that holds no register, is
ignored, and that a REGISTER_WRITE acts as the row of its register, is the model's choice (log entry
39), and so is the row of a ring's notify for a side and index that name the ring (log entry 38). -/
def Obligations.RegistersAreWritten : Prop :=
  ∀ (s : State) (v : Word), Awake s →
    (∀ o n, n ≠ 4 → exec (.registerWrite o n v) s = .next s) ∧
    (∀ o : BitVec 12,
      o ∉ [0x004#12, 0x008#12, 0x00C#12, 0x010#12, 0x014#12, 0x018#12, 0x01C#12] →
      exec (.registerWrite o 4 v) s = .next s) ∧
    exec (.registerWrite 0x00C 4 v) s =
      .next { s with link := { s.link with sbl := v &&& 0xFFFFFF00 } } ∧
    exec (.registerWrite 0x010 4 v) s = .next { s with link := { s.link with sbh := v } } ∧
    exec (.registerWrite 0x008 4 v) s = exec (.gsrStrayClear v) s ∧
    exec (.registerWrite 0x014 4 v) s =
      exec (.strayNotify (v.getLsbD 24) (v.extractLsb' 16 8) (v.extractLsb' 0 16)) s ∧
    (let index : Byte := v.extractLsb' 16 8
     let count : Half := v.extractLsb' 0 16
     (v.getLsbD 24 = false →
       (index = 0 → exec (.registerWrite 0x014 4 v) s = exec (.mqPostedNotify count) s) ∧
       (∀ q : RqId, index.toNat = q.val + 1 →
         exec (.registerWrite 0x014 4 v) s = exec (.rqPostedNotify q count) s) ∧
       (index = 9 → exec (.registerWrite 0x014 4 v) s = exec (.receiveRingPostedNotify count) s)) ∧
     (v.getLsbD 24 = true →
       (index = 0 → exec (.registerWrite 0x014 4 v) s = exec (.mcqConsumedNotify count) s) ∧
       (∀ n : CqId, index.toNat = n.val + 1 →
         exec (.registerWrite 0x014 4 v) s = exec (.cqConsumedNotify n count) s))) ∧
    exec (.registerWrite 0x018 4 v) s = exec (.isrClear v) s ∧
    exec (.registerWrite 0x01C 4 v) s = exec (.imrWrite v) s ∧
    (v.getLsbD 16 = true →
      exec (.gsrStrayClear v) s = .next { s with link := { s.link with stray := false } }) ∧
    (v.getLsbD 16 = false → exec (.gsrStrayClear v) s = .next s) ∧
    exec (.isrClear v) s = .next
      { s with ints := { s.ints with isr := s.ints.isr &&& ~~~ v.extractLsb' 0 8 } } ∧
    exec (.imrWrite v) s = .next
      { s with
        ints := {
          isr := s.ints.isr, imr := v.extractLsb' 0 8,
          sent := s.ints.sent +
            if s.ints.isr &&& ~~~ s.ints.imr = 0 ∧ s.ints.isr &&& ~~~ v.extractLsb' 0 8 ≠ 0 ∧
              s.link.busMaster = true then 1 else 0 } }

/-- A notify that is no count error is stored as its ring's posted or consumed count, and nothing else
changes: while RUNNING or HALTED, for a queue or ring in RUNNING (R26, R109, R161), in ERROR without a
check (R26, R161, R116), for the MQ with a check in RUNNING only (R167), for the MCQ while records may
be written to it, and without a check otherwise (R168). At a new buffer count of the receive ring in
RUNNING every mailbox decision that waits is taken again (`DecidesAgain`: R155), and nothing else
changes. A notify is stray, and sets the stray-notify bit and nothing else, in any controller state but
RUNNING and HALTED, for an index that no ring of its side has (R190), and for a ring that is ABSENT
(R26, R109, R161). -/
def Obligations.NotifiesAreStored : Prop :=
  (∀ (s : State) (side : Bool) (index : Byte) (count : Half), Awake s →
    let stray : State := { s with link := { s.link with stray := true } }
    (¬ Live s ∨ (side = false ∧ 9 < index.toNat) ∨ (side = true ∧ 4 < index.toNat) →
      exec (.strayNotify side index count) s = .next stray) ∧
    (¬ Live s →
      exec (.mqPostedNotify count) s = .next stray ∧ exec (.mcqConsumedNotify count) s = .next stray ∧
      (∀ q, exec (.rqPostedNotify q count) s = .next stray) ∧
      (∀ n, exec (.cqConsumedNotify n count) s = .next stray) ∧
      exec (.receiveRingPostedNotify count) s = .next stray) ∧
    (∀ q, (s.rq q).state = .absent → exec (.rqPostedNotify q count) s = .next stray) ∧
    (∀ n, (s.cq n).state = .absent → exec (.cqConsumedNotify n count) s = .next stray) ∧
    (s.rx.state = .absent → exec (.receiveRingPostedNotify count) s = .next stray)) ∧
  ∀ (s : State) (count : Half), Live s →
    ((s.link.ctrl = .running →
        (count - (if s.mgmt.reading then s.mgmt.mqTaken + 1 else s.mgmt.mqTaken)).toNat ≤
          s.mgmt.mqSize.toNat) →
      exec (.mqPostedNotify count) s = .next { s with mgmt := { s.mgmt with mqPosted := count } }) ∧
    ((s.mcqOpen = true → (count - s.mgmt.mcqConsumed).toNat ≤
        (s.mgmt.mcqProduced - s.mgmt.mcqConsumed).toNat) →
      exec (.mcqConsumedNotify count) s =
        .next { s with mgmt := { s.mgmt with mcqConsumed := count } }) ∧
    (∀ q, (s.rq q).state = .error ∨ (s.rq q).state = .deleting ∨
        ((s.rq q).state = .running ∧
          (count - (if s.reading q then (s.rq q).taken + 1 else (s.rq q).taken)).toNat ≤
            (s.rq q).size.toNat) →
      exec (.rqPostedNotify q count) s = .next (s.modRq q fun c => { c with posted := count })) ∧
    (∀ n, (s.cq n).state = .error ∨
        ((s.cq n).state = .running ∧
          (count - (s.cq n).consumed).toNat ≤ ((s.cq n).produced - (s.cq n).consumed).toNat) →
      exec (.cqConsumedNotify n count) s = .next (s.modCq n fun c => { c with consumed := count })) ∧
    (s.rx.state = .error ∨
        (s.rx.state = .running ∧ (∀ p, (s.port p).tgt.transfer.isDeciding = false) ∧
          (count - (if s.rx.fetch.isSome then s.rx.taken + 1 else s.rx.taken)).toNat ≤
            s.rx.size.toNat) →
      exec (.receiveRingPostedNotify count) s = .next { s with rx := { s.rx with posted := count } }) ∧
    (s.rx.state = .running →
      (count - (if s.rx.fetch.isSome then s.rx.taken + 1 else s.rx.taken)).toNat ≤ s.rx.size.toNat →
      let v : State := { s with rx := { s.rx with posted := count } }
      ∃ u, exec (.receiveRingPostedNotify count) s = .next u ∧
        u = { v with ports := u.ports, mgmt := { s.mgmt with latches := u.mgmt.latches } } ∧
        ∀ p, DecidesAgain v u p)

/-- A count error stores the count and: halts the controller for the MQ and the MCQ, with its halt fault
(R167, R168), or in HALTED ends all further MCQ writing (R168); takes a request queue, a completion
queue or the receive ring from RUNNING to ERROR with reason COUNT, its event latch set (R27, R109,
R161). A mailbox decision that waits for the receive ring is taken again at its ERROR (`DecidesAgain`:
R155). The taken and produced counts do not change. What the entry to HALTED does to the ports, their
target units, the trigger unit and the command in hand is `HaltTaken` (R85, R94, R102, R143, R165,
R173). -/
def Obligations.CountErrors : Prop :=
  ∀ (s : State) (count : Half), Live s →
    (s.link.ctrl = .running →
      s.mgmt.mqSize.toNat <
        (count - (if s.mgmt.reading then s.mgmt.mqTaken + 1 else s.mgmt.mqTaken)).toNat →
      ∃ t, exec (.mqPostedNotify count) s = .next t ∧ t.link.ctrl = .halted ∧
        t.link.haltFault = .mqCount ∧ t.mgmt.mqPosted = count ∧ t.mgmt.mqTaken = s.mgmt.mqTaken ∧
        HaltTaken .mqCount s t) ∧
    (s.mcqOpen = true → (s.mgmt.mcqProduced - s.mgmt.mcqConsumed).toNat <
        (count - s.mgmt.mcqConsumed).toNat →
      (s.link.ctrl = .running → ∃ t, exec (.mcqConsumedNotify count) s = .next t ∧
        t.link.ctrl = .halted ∧ t.link.haltFault = .mcqCount ∧ t.mgmt.mcqConsumed = count ∧
        HaltTaken .mcqCount s t) ∧
      (s.link.ctrl = .halted → exec (.mcqConsumedNotify count) s = .next
        { s with mgmt := { s.mgmt with mcqConsumed := count, muted := true } })) ∧
    (∀ q, (s.rq q).state = .running → (s.rq q).size.toNat <
        (count - (if s.reading q then (s.rq q).taken + 1 else (s.rq q).taken)).toNat →
      ∃ t, exec (.rqPostedNotify q count) s = .next t ∧
        t.rq q = { s.rq q with state := .error, reason := .count, posted := count } ∧
        (∃ x ∈ t.mgmt.latches, x.latch = .rqError q) ∧
        t = { s with
              rqs := t.rqs, mgmt := { s.mgmt with latches := t.mgmt.latches },
              accesses := s.accesses ++ [⟨.rqStatus q,
                .write [(s.statusSlot (2 + q.val), rqStatusWord (t.rq q) s.timebase)], s.timebase,
                false, !s.link.busMaster, false⟩] } ∧
        ∀ r, r ≠ q → t.rq r = s.rq r) ∧
    (∀ n, (s.cq n).state = .running → ((s.cq n).produced - (s.cq n).consumed).toNat <
        (count - (s.cq n).consumed).toNat →
      ∃ t, exec (.cqConsumedNotify n count) s = .next t ∧ (t.cq n).state = .error ∧
        (t.cq n).reason = .count ∧ (t.cq n).consumed = count ∧
        (t.cq n).produced = (s.cq n).produced ∧ (∃ x ∈ t.mgmt.latches, x.latch = .cqError n) ∧
        ∀ e ∈ t.comp.holding, e.cq ≠ n) ∧
    (s.rx.state = .running → s.rx.size.toNat <
        (count - (if s.rx.fetch.isSome then s.rx.taken + 1 else s.rx.taken)).toNat →
      ∃ t, exec (.receiveRingPostedNotify count) s = .next t ∧
        t.rx = { s.rx with state := .error, reason := .count, posted := count } ∧
        (∃ x ∈ t.mgmt.latches, x.latch = .ringError) ∧
        ∀ p, DecidesAgain { s with rx := t.rx } t p)

/-! ### Host accesses (R185) -/

/-- Bus mastering enabled changes the enable alone. Disabled, it changes the enable, and every access in
flight fails (R185): the block that issued the last of them is told as at the failing end of that
access, after the others have been told in the same way, and so on down to the first. So an MQ entry
read in flight halts the controller with MQ_FETCH (R169). What is in flight afterwards was issued after
it and can only fail. That all are told at once, in the order of issue, is the model's choice (log
entry 8). -/
def Obligations.BusMasteringChanges : Prop :=
  ∀ s : State, Awake s →
    exec (.busMasteringChange true) s =
      .next { s with link := { s.link with busMaster := true } } ∧
    (s.accesses = [] → exec (.busMasteringChange false) s =
      .next { s with link := { s.link with busMaster := false } }) ∧
    (∃ t, exec (.busMasteringChange false) s = .next t ∧ t.link.busMaster = false ∧
      ∀ a ∈ t.accesses, a.doomed = true) ∧
    (∀ (before : List Access) (a : Access) (c : Instr) (u : State), s.accesses = before ++ [a] →
      FailingEnd a c → exec (.busMasteringChange false) (s.inFlight before) = .next u →
      exec (.busMasteringChange false) s = exec c (u.inFlight (a :: u.accesses))) ∧
    ∀ a, s.accesses = [a] → a.kind = .mqEntry → s.link.ctrl = .running →
      ∃ t, exec (.busMasteringChange false) s = .next t ∧ t.link.ctrl = .halted ∧
        t.link.haltFault = .mqFetch ∧ t.mgmt.reading = false ∧ t.mgmt.mqTaken = s.mgmt.mqTaken

/-- A host access fails when 50 ms pass without a report, and before that nothing happens (R185); that
the 50 ms run from the issue of the whole access is the model's choice (log entry 8). Whatever the
access is for, its timeout is the failing end of that access. So the header read halts the controller
with SETUP_FAULT (R193), the management unit's write of an MQ status word with MCQ_WRITE (R171), the MQ
entry read with MQ_FETCH (R169), and a controller status word write has no effect (R192). What such an
entry to HALTED does to the rest of the part is `HaltTaken` (R85, R102, R143, R165, R173). -/
def Obligations.AccessesTimeOut : Prop :=
  ∀ (s : State) (k : Nat) (a : Access) (rest : List Access), Awake s →
    InFlight (fun _ => true) k s a rest →
    (s.since a.issuedAt < 50000 → exec (.accessTimeout k) s = .next s) ∧
    (50000 ≤ s.since a.issuedAt →
      (a.kind = .controllerStatus → exec (.accessTimeout k) s = .next (s.inFlight rest)) ∧
      (a.kind = .header → s.link.ctrl = .starting → ∃ t, exec (.accessTimeout k) s = .next t ∧
        t.link.ctrl = .halted ∧ t.link.haltFault = .setupFault ∧
        HaltTaken .setupFault (s.inFlight rest) t) ∧
      (a.kind = .mqEntry → s.link.ctrl = .running → ∃ t, exec (.accessTimeout k) s = .next t ∧
        t.link.ctrl = .halted ∧ t.link.haltFault = .mqFetch ∧ t.mgmt.reading = false ∧
        t.mgmt.mqTaken = s.mgmt.mqTaken ∧ HaltTaken .mqFetch (s.inFlight rest) t) ∧
      (a.kind = .mqStatus false → s.link.ctrl = .running → ∃ t,
        exec (.accessTimeout k) s = .next t ∧ t.link.ctrl = .halted ∧
        t.link.haltFault = .mcqWrite ∧ t.mgmt.muted = true ∧
        HaltTaken .mcqWrite (s.inFlight rest) t) ∧
      let failsAs (c : Instr) : Prop := exec (.accessTimeout k) s = exec c s
      let is (kind : AccessKind → Bool) (j : Nat) : Prop := InFlight kind j s a rest
      (∀ h, is (· == .header) 0 → failsAs (.headerReadEnd false h)) ∧
      (∀ j, is (· == .controllerStatus) j → failsAs (.controllerStatusWordWriteEnd j false)) ∧
      (∀ e, is (· == .mqEntry) 0 → failsAs (.mqEntryReadEnd false e)) ∧
      (is (fun x => x == .mqStatus true || x == .mqStatus false) 0 →
        failsAs (.mqStatusWordWriteEnd false)) ∧
      (is (· == .mcqRecord) 0 → failsAs (.mcqRecordWriteEnd false)) ∧
      (is (fun x => x == .mcqStatus true || x == .mcqStatus false) 0 →
        failsAs (.mcqStatusWordWriteEnd false)) ∧
      (∀ e, is (fun x => match x with | .rqEntry _ => true | _ => false) 0 →
        failsAs (.rqEntryReadEnd false e)) ∧
      (∀ q j, is (· == .rqStatus q) j → failsAs (.rqStatusWordWriteEnd q j false)) ∧
      (∀ p d, is (· == .staging p) 0 → failsAs (.stagingReadEnd p false d)) ∧
      (∀ p, is (· == .draining p) 0 → failsAs (.drainingWriteEnd p false)) ∧
      (is (· == .cqRecord) 0 → failsAs (.recordWriteEnd false)) ∧
      (∀ n j, is (fun x => match x with | .cqStatus i _ => i == n | _ => false) j →
        failsAs (.cqStatusWordWriteEnd n j false)) ∧
      (∀ d, is (· == .rxEntry) 0 → failsAs (.receiveFetchEnd false d)) ∧
      (∀ j, is (· == .rxStatus) j → failsAs (.receiveStatusWordWriteEnd j false)) ∧
      (∀ p, is (· == .targetDrain p) 0 → failsAs (.targetDrainEnd p false)) ∧
      ∀ d, (∃ pre post, s.accesses = pre ++ a :: post ∧ rest = pre ++ post ∧
          a.forCommand = true ∧ ∀ b ∈ pre, b.forCommand = false) →
        (a.kind = .cmdRead ∨ a.kind = .cmdWrite ∨ a.kind = .rxStatus ∨ (∃ q, a.kind = .rqStatus q) ∨
          ∃ n why, a.kind = .cqStatus n why) → failsAs (.commandHostAccessEnd false d))

/-! ### The management rings (chapter 9) -/

/-- The MQ (R169): free, with an entry posted, the unit reads the next entry; the entry read is taken,
the taken count rises and the MQ status word is written; a read that fails halts the controller with
MQ_FETCH; after the status word the command is to be executed, and a failed write halts the
controller with MCQ_WRITE; what the entry to HALTED does to the rest of the part is `HaltTaken` (R85,
R102, R143, R165, R173). The MCQ status word of the start (R166) is written at the end of that of the
MQ, which is the model's reading (log entry 15). -/
def Obligations.MqEntryIsTaken : Prop :=
  ∀ (s : State) (a : Access) (rest : List Access) (ok : Bool) (e : Vector Byte 64), Running s →
    (s.mgmt.command = none → s.mgmt.due = none → s.mgmt.reading = false →
      s.mgmt.mqPosted ≠ s.mgmt.mqTaken →
      (s.mgmt.mqPosted - s.mgmt.mqTaken).toNat ≤ s.mgmt.mqSize.toNat →
      exec .mqEntryTake s = .next
        ({ s with mgmt := { s.mgmt with reading := true } }.issued .mqEntry
          (.read [(s.mgmt.mqBase +
            BitVec.ofNat 64 (64 * (s.mgmt.mqTaken.toNat % s.mgmt.mqSize.toNat)), 64)]) false)) ∧
    ((s.mgmt.command ≠ none ∨ s.mgmt.due ≠ none ∨ s.mgmt.reading = true ∨
        s.mgmt.mqPosted = s.mgmt.mqTaken) → exec .mqEntryTake s = .next s) ∧
    (InFlight (· == .mqEntry) 0 s a rest → EndsAs a ok 64 →
      (ok = true → exec (.mqEntryReadEnd ok e) s = .next
        (({ s with mgmt := { s.mgmt with
            reading := false, mqTaken := s.mgmt.mqTaken + 1,
            command := some { entry := e.toList, phase := .mqStatus } } }.inFlight rest).issued
          (.mqStatus false)
          (.write [(s.statusSlot 0, mgmtStatusWord (s.mgmt.mqTaken + 1) s.timebase)]) false)) ∧
      (ok = false → ∃ t, exec (.mqEntryReadEnd ok e) s = .next t ∧ t.link.ctrl = .halted ∧
        t.link.haltFault = .mqFetch ∧ t.mgmt.mqTaken = s.mgmt.mqTaken ∧
        HaltTaken .mqFetch (s.inFlight rest) t)) ∧
    (∀ d, InFlight (fun k => k == .mqStatus true || k == .mqStatus false) 0 s a rest →
      EndsAs a ok 0 →
      (ok = true → a.kind = .mqStatus false →
        s.mgmt.command = some { entry := d, phase := .mqStatus } →
        exec (.mqStatusWordWriteEnd ok) s = .next ((waitsAt d .execute s).inFlight rest)) ∧
      (ok = true → a.kind = .mqStatus true →
        exec (.mqStatusWordWriteEnd ok) s = .next ((s.inFlight rest).issued (.mcqStatus true)
          (.write [(s.statusSlot 1, mgmtStatusWord s.mgmt.mcqProduced s.timebase)]) false)) ∧
      (ok = false → ∃ t, exec (.mqStatusWordWriteEnd ok) s = .next t ∧ t.link.ctrl = .halted ∧
        t.link.haltFault = .mcqWrite ∧ HaltTaken .mcqWrite (s.inFlight rest) t))

/-- The MCQ (R171, R184): with no write in progress, room in the ring and the controller allowing it, a
completion due is written to its slot; with none due, the event record of the latch set first, which is
then cleared. The record written, the produced count rises and the status word is written; after it ISR
bit 0 is set. A failed write halts the controller with MCQ_WRITE, and in HALTED nothing more is written
to the MCQ (R173). A sequence in progress at a controller stop is carried to its end (R195). Of latches
set in the same microsecond any may be first: the model's choice (log entry 14). After the status word
of the start ISR bit 0 is not set (log entry 15), and a sequence carried on in STOPPING issues its
status word (log entry 51): the model's readings. What the entry to HALTED does to the rest of the part
is `HaltTaken` (R85, R102, R143, R165). -/
def Obligations.McqRecordsAreWritten : Prop :=
  ∀ (s : State) (a : Access) (rest : List Access), Awake s →
    let slot : Addr := s.mgmt.mcqBase +
      BitVec.ofNat 64 (32 * (s.mgmt.mcqProduced.toNat % s.mgmt.mcqSize.toNat))
    (s.mcqOpen = true → s.mgmt.sequence = .idle → 0 < s.mcqFree →
      (∀ record, s.mgmt.due = some record →
        exec .mcqWriteSequence s = .next
          ({ s with mgmt := { s.mgmt with sequence := .record true } }.issued .mcqRecord
            (.write [(slot, record)]) false)) ∧
      ∀ (pre post : List SetLatch) (x : SetLatch), s.mgmt.due = none →
        s.mgmt.latches = pre ++ x :: post → (∀ y ∈ pre, y.time = x.time ∧ y.latch ≠ x.latch) →
        exec (.eventRecord x.latch) s = .next
          ({ s with mgmt := { s.mgmt with
              sequence := .record false,
              latches := s.mgmt.latches.filter fun y => y.latch ≠ x.latch } }.issued .mcqRecord
            (.write [(slot, eventRecordOf x)]) false)) ∧
    (∀ completion, InFlight (· == .mcqRecord) 0 s a rest → s.mgmt.sequence = .record completion →
      (s.mcqOpen = true ∨ s.link.ctrl = .stopping ∧ s.mgmt.muted = false → EndsAs a true 0 →
        exec (.mcqRecordWriteEnd true) s = .next
          (({ s with mgmt := { s.mgmt with
              mcqProduced := s.mgmt.mcqProduced + 1,
              due := if completion then none else s.mgmt.due, sequence := .status } }.inFlight
            rest).issued (.mcqStatus false)
            (.write [(s.statusSlot 1, mgmtStatusWord (s.mgmt.mcqProduced + 1) s.timebase)]) false)) ∧
      (s.link.ctrl = .running → ∃ t, exec (.mcqRecordWriteEnd false) s = .next t ∧
        t.link.ctrl = .halted ∧ t.link.haltFault = .mcqWrite ∧ t.mgmt.muted = true ∧
        t.mgmt.sequence = .idle ∧ t.mgmt.mcqProduced = s.mgmt.mcqProduced ∧
        HaltTaken .mcqWrite (s.inFlight rest) t) ∧
      (s.link.ctrl ≠ .running → exec (.mcqRecordWriteEnd false) s = .next
        ({ s with mgmt := { s.mgmt with sequence := .idle, muted := true } }.inFlight rest))) ∧
    (InFlight (fun k => k == .mcqStatus true || k == .mcqStatus false) 0 s a rest →
      (EndsAs a true 0 →
        (a.kind = .mcqStatus true →
          exec (.mcqStatusWordWriteEnd true) s = .next (s.inFlight rest)) ∧
        (a.kind = .mcqStatus false → ∃ t, exec (.mcqStatusWordWriteEnd true) s = .next t ∧
          t.ints.isr = s.ints.isr ||| 1 ∧ t.ints.imr = s.ints.imr ∧
          t = { s.inFlight rest with
            mgmt := { s.mgmt with sequence := .idle }, ints := t.ints })) ∧
      (s.link.ctrl = .running → ∃ t, exec (.mcqStatusWordWriteEnd false) s = .next t ∧
        t.link.ctrl = .halted ∧ t.link.haltFault = .mcqWrite ∧ t.mgmt.muted = true ∧
        t.mgmt.mcqProduced = s.mgmt.mcqProduced ∧ HaltTaken .mcqWrite (s.inFlight rest) t) ∧
      (s.link.ctrl ≠ .running → a.kind = .mcqStatus false →
        exec (.mcqStatusWordWriteEnd false) s = .next
          ({ s with mgmt := { s.mgmt with sequence := .idle, muted := true } }.inFlight rest)))

/-! ### The management commands (chapter 9) -/

/-- An opcode of 00h or of 15h to FFh completes UNKNOWN_COMMAND and changes nothing (R170). A command
row does nothing unless the controller is RUNNING and the management unit is to execute a command of the
row's opcode (R169, R170). -/
def Obligations.CommandsGoByTheirOpcode : Prop :=
  (∀ (s : State) (e : List Byte), Running s →
    s.mgmt.command = some { entry := e, phase := .execute } →
    opcode e = 0 ∨ 0x15 ≤ (opcode e).toNat → Answers .unknownCommand e .unknownCommand s) ∧
  ∀ (s : State) (alerts : BitVec 4),
    ∀ x ∈ [(0x01#8, Instr.identify), (0x02, .createCompletionQueue), (0x03, .deleteCompletionQueue),
      (0x04, .createRequestQueue), (0x05, .deleteRequestQueue), (0x06, .configurePort),
      (0x07, .enablePort), (0x08, .disablePort), (0x09, .restartPort), (0x0A, .setReceiveRing),
      (0x0B, .writeImage), (0x0C, .setReply), (0x0D, .defineTrigger), (0x0E, .enableTriggers alerts),
      (0x0F, .disableTriggers), (0x10, .clearTrigger), (0x11, .queryTrigger), (0x12, .setTick),
      (0x13, .abort), (0x14, .readPortStatistics)],
      (∀ e, ¬ Executing x.1 e s) → exec x.2 s = .next s

/-- IDENTIFY, QUERY TRIGGER and READ PORT STATISTICS write their record to the command's buffer and
complete when that write has ended; the second is refused INVALID_ID for an entry above 31, the
third for a port above 3 (R174, R181, R182). The values are those at the moment of execution. -/
def Obligations.RecordsGoToTheBuffer : Prop :=
  ∀ (s : State) (e : List Byte),
    (Executing 0x01 e s → exec .identify s = .next
      ((waitsAt e .hostAccess s).issued .cmdWrite
        (.write [(rd64 e 16, identificationRecord s.mgmt)]) true)) ∧
    (Executing 0x11 e s →
      (32 ≤ (byteAt e 8).toNat → Answers .queryTrigger e .invalidId s) ∧
      ∀ t : TrigId, (byteAt e 8).toNat = t.val → exec .queryTrigger s = .next
        ((waitsAt e .hostAccess s).issued .cmdWrite
          (.write [(rd64 e 16, queryRecord (s.trigger t))]) true)) ∧
    (Executing 0x14 e s →
      (4 ≤ (byteAt e 8).toNat → Answers .readPortStatistics e .invalidId s) ∧
      ∀ p : PortId, (byteAt e 8).toNat = p.val → exec .readPortStatistics s = .next
        ((waitsAt e .hostAccess s).issued .cmdWrite
          (.write [(rd64 e 16, statsRecord (s.port p).stats)]) true))

/-- CREATE COMPLETION QUEUE, checked in R175's order: INVALID_ID, EXISTS, INVALID_FIELD; accepted, the
queue is RUNNING with the base, size, K and L of the entry and counts 0, its status word is written,
and the command waits for that write (R107). CREATE REQUEST QUEUE, checked in R176's order:
INVALID_ID, EXISTS, INVALID_FIELD, then the bound queue (INVALID_ID when ABSENT, WRONG_STATE when
not RUNNING); accepted, likewise (R25). -/
def Obligations.QueuesAreCreated : Prop :=
  ∀ (s : State) (e : List Byte),
    (Executing 0x02 e s →
      (4 ≤ (byteAt e 8).toNat → Answers .createCompletionQueue e .invalidId s) ∧
      ∀ n : CqId, (byteAt e 8).toNat = n.val →
        ((s.cq n).state ≠ .absent → Answers .createCompletionQueue e .already s) ∧
        ((s.cq n).state = .absent →
          ((rd64 e 16).toNat % 64 ≠ 0 ∨
              (rd16 e 10).toNat ∉ [4, 8, 16, 32, 64, 128, 256, 512, 1024, 2048, 4096] ∨
              byteAt e 12 = 0 → Answers .createCompletionQueue e .invalidField s) ∧
          ((rd64 e 16).toNat % 64 = 0 →
            (rd16 e 10).toNat ∈ [4, 8, 16, 32, 64, 128, 256, 512, 1024, 2048, 4096] →
            byteAt e 12 ≠ 0 → exec .createCompletionQueue s = .next
              ((waitsAt e .statusWord (s.modCq n fun _ =>
                { state := .running, base := rd64 e 16, size := rd16 e 10, k := byteAt e 12,
                  l := rd16 e 14, produced := 0, consumed := 0, unannounced := 0, timer := none,
                  reason := .nothing })).issued (.cqStatus n .create)
                (.write [(s.statusSlot (10 + n.val), statusWord 0 1 0 s.timebase)]) true)))) ∧
    (Executing 0x04 e s →
      (8 ≤ (byteAt e 8).toNat → Answers .createRequestQueue e .invalidId s) ∧
      ∀ q : RqId, (byteAt e 8).toNat = q.val →
        ((s.rq q).state ≠ .absent → Answers .createRequestQueue e .already s) ∧
        ((s.rq q).state = .absent →
          (4 ≤ (byteAt e 9).toNat ∨ (rd64 e 16).toNat % 64 ≠ 0 ∨
              (rd16 e 10).toNat ∉ [4, 8, 16, 32, 64, 128, 256, 512, 1024, 2048, 4096] ∨
              (byteAt e 12).toNat = 0 ∨ 8 < (byteAt e 12).toNat →
            Answers .createRequestQueue e .invalidField s) ∧
          ∀ n : CqId, (byteAt e 9).toNat = n.val → (rd64 e 16).toNat % 64 = 0 →
            (rd16 e 10).toNat ∈ [4, 8, 16, 32, 64, 128, 256, 512, 1024, 2048, 4096] →
            1 ≤ (byteAt e 12).toNat → (byteAt e 12).toNat ≤ 8 →
            ((s.cq n).state = .absent → Answers .createRequestQueue e .invalidId s) ∧
            ((s.cq n).state = .error → Answers .createRequestQueue e .wrongState s) ∧
            ((s.cq n).state = .running → exec .createRequestQueue s = .next
              ((waitsAt e .statusWord (s.modRq q fun _ =>
                { state := .running, base := rd64 e 16, size := rd16 e 10, cq := n,
                  weight := byteAt e 12, posted := 0, taken := 0, hold := none, openCount := 0,
                  reason := .nothing, deletePending := false })).issued (.rqStatus q)
                (.write [(s.statusSlot (2 + q.val), statusWord 0 1 0 s.timebase)]) true))))

/-- DELETE COMPLETION QUEUE (R108, R175): INVALID_ID for a number above 3 or an ABSENT queue, IN_USE for
a queue that a request queue, a receive CQ, a trigger entry, a record or the writer, a transaction in
POSTING, a target unit's record or message, or the receive unit's fetch or record names; accepted, and
not otherwise, the queue is ABSENT, what was unannounced is forgotten, the final status word is written,
and the command waits for that write. -/
def Obligations.DeleteCompletionQueue : Prop :=
  ∀ (s : State) (e : List Byte), Executing 0x03 e s →
    (4 ≤ (byteAt e 8).toNat → Answers .deleteCompletionQueue e .invalidId s) ∧
    ∀ n : CqId, (byteAt e 8).toNat = n.val →
      ((s.cq n).state = .absent → Answers .deleteCompletionQueue e .invalidId s) ∧
      ((s.cq n).state ≠ .absent →
        let named : Prop :=
          (∃ q, (s.rq q).state ≠ .absent ∧ (s.rq q).cq = n) ∨
          (∃ p, (s.port p).cfg.rxCq = some n) ∨
          (∃ t, (s.trigger t).state ≠ .empty ∧ (s.trigger t).cq = n) ∨
          (∃ h ∈ s.comp.holding, h.cq = n) ∨
          (∃ h, s.comp.writer = .record h ∧ h.cq = n) ∨ (∃ b, s.comp.writer = .status n b) ∨
          (∃ k t, s.txn k = some t ∧ t.state = .posting ∧ t.cq = n) ∨
          (∃ p, ∃ r ∈ (s.port p).tgt.records, r.receive.cq = n) ∨
          (∃ p m, ((s.port p).tgt.staging = .filling m ∨ (s.port p).tgt.staging = .draining m) ∧
            m.buffer.cq = n) ∨
          (∃ p, s.rx.fetch = some (p, n)) ∨ ∃ r, s.rx.waiting = some r ∧ r.cq = n
        (named → Answers .deleteCompletionQueue e .inUse s) ∧
        (¬ named → exec .deleteCompletionQueue s = .next
          ((waitsAt e .statusWord (s.modCq n fun c =>
            { c with state := .absent, unannounced := 0, timer := none })).issued
            (.cqStatus n .delete)
            (.write [(s.statusSlot (10 + n.val),
              statusWord (s.cq n).produced 0 (s.cq n).reason.code s.timebase)]) true)))

/-- DELETE REQUEST QUEUE (R42, R43, R176): INVALID_ID for a number above 7 or an ABSENT queue,
WRONG_STATE for one already DELETING. Accepted with no entry open and no read in progress, the queue is
deleted at once, and the command waits for the final status word write. With an entry open or a read in
progress, the queue is DELETING and its status word is written, the command waits, and each of the
queue's HELD and WAITING transactions without a mark is marked FLUSHED; one in RETRY_WAIT ends FLUSHED.
That a deletion at once writes two status words, DELETING and ABSENT, the last one with the reason kept,
and that the context takes its Reset values at their issue, is the model's reading (log entry 17). -/
def Obligations.DeleteRequestQueue : Prop :=
  ∀ (s : State) (e : List Byte), Executing 0x05 e s →
    (8 ≤ (byteAt e 8).toNat → Answers .deleteRequestQueue e .invalidId s) ∧
    ∀ q : RqId, (byteAt e 8).toNat = q.val →
      ((s.rq q).state = .absent → Answers .deleteRequestQueue e .invalidId s) ∧
      ((s.rq q).state = .deleting → Answers .deleteRequestQueue e .wrongState s) ∧
      ((s.rq q).state = .running ∨ (s.rq q).state = .error →
        ((s.rq q).openCount = 0 → s.reading q = false →
          (∀ k t, s.txn k = some t → t.origin ≠ .rq q) →
          exec .deleteRequestQueue s = .next
            (((waitsAt e .statusWord (s.modRq q fun _ => RqCtx.reset)).issued (.rqStatus q)
              (.write [(s.statusSlot (2 + q.val),
                statusWord (s.rq q).taken 3 (s.rq q).reason.code s.timebase)]) false).issued
              (.rqStatus q)
              (.write [(s.statusSlot (2 + q.val),
                statusWord (s.rq q).taken 0 (s.rq q).reason.code s.timebase)]) true)) ∧
        ((s.rq q).openCount ≠ 0 →
          ∀ (p : PortId) (k : SlotId) (t : Txn), (s.port p).inService = some k →
            s.txn k = some t → t.origin = .rq q → t.port = p → t.state = .retryWait →
            (∀ j u, j ≠ k → s.txn j = some u → u.origin = .rq q → u.state ≠ .retryWait) →
            CanPost s p t → ∃ u, exec .deleteRequestQueue s = .next u ∧
              RecordPosted (s.modRq q fun c => { c with state := .deleting, deletePending := true })
                u p k { t with
                  state := .posting, result := .flushed, detail := 0, segIndex := 0,
                  writeCount := 0, readCount := 0, endTime := s.timebase } ∧
              u.mgmt = { s.mgmt with command := some { entry := e, phase := .deleteRq q } }) ∧
        ((s.rq q).openCount ≠ 0 ∨ s.reading q = true →
          (∀ k t, s.txn k = some t → t.origin = .rq q → t.state ≠ .retryWait) →
          ∃ t, exec .deleteRequestQueue s = .next t ∧
            t.rq q = { s.rq q with state := .deleting, deletePending := true } ∧
            t.mgmt = { s.mgmt with command := some { entry := e, phase := .deleteRq q } } ∧
            t = { s with
                  rqs := t.rqs, mgmt := t.mgmt, slots := t.slots,
                  accesses := s.accesses ++ [⟨.rqStatus q, .write [(s.statusSlot (2 + q.val),
                    statusWord (s.rq q).taken 3 (s.rq q).reason.code s.timebase)], s.timebase,
                    false, !s.link.busMaster, false⟩] } ∧
            (∀ r, r ≠ q → t.rq r = s.rq r) ∧
            ∀ k u, s.txn k = some u →
              (u.origin = .rq q → (u.state = .held ∨ u.state = .waiting) → u.mark = none →
                t.txn k = some { u with mark := some .flushed }) ∧
              (u.origin ≠ .rq q ∨ (u.state ≠ .held ∧ u.state ≠ .waiting) ∨ u.mark ≠ none →
                t.txn k = some u)))

/-- CONFIGURE PORT (R177), checked in its order: INVALID_ID, WRONG_STATE unless the port is OFF,
INVALID_FIELD, then the receive CQ; accepted, every setting of the port is replaced, its images are
cleared, its pointers are 0 and its reply slots EMPTY, and the command completes SUCCESS. -/
def Obligations.ConfigurePort : Prop :=
  ∀ (s : State) (e : List Byte), Executing 0x06 e s →
    (4 ≤ (byteAt e 8).toNat → Answers .configurePort e .invalidId s) ∧
    ∀ p : PortId, (byteAt e 8).toNat = p.val →
      ((s.port p).state ≠ .off → Answers .configurePort e .wrongState s) ∧
      ((s.port p).state = .off → parseSettings e = none →
        Answers .configurePort e .invalidField s) ∧
      ∀ c, (s.port p).state = .off → parseSettings e = some c →
        ((slotsOk c.slots = false ∨ imagesOk c.slots = false) →
          Answers .configurePort e .invalidField s) ∧
        (slotsOk c.slots = true → imagesOk c.slots = true →
          (c.rxCq = none → c.wantsBuffer = true → Answers .configurePort e .invalidId s) ∧
          (∀ n, c.rxCq = some n → (s.cq n).state = .absent →
            Answers .configurePort e .invalidId s) ∧
          (∀ n, c.rxCq = some n → (s.cq n).state = .error → c.wantsBuffer = true →
            Answers .configurePort e .wrongState s) ∧
          ((c.rxCq = none ∧ c.wantsBuffer = false) ∨
              (∃ n, c.rxCq = some n ∧
                ((s.cq n).state = .running ∨
                  (s.cq n).state = .error ∧ c.wantsBuffer = false)) →
            exec .configurePort s = .next (answered e .success 0 0 (s.modPort p fun P =>
              { P with
                cfg := c,
                tgt := { P.tgt with
                  images := Vector.replicate 3 (List.replicate 256 0),
                  pointers := Vector.replicate 3 0,
                  replies := Vector.replicate 3 { state := .empty, bytes := [] } } }))))

/-- ENABLE PORT (R93, R178): INVALID_ID, WRONG_STATE unless the port is OFF; accepted, the port is
OBSERVING in the enabling wait, monitor BUSY and not in step, with no attempt, its transfer, pointers,
replies and held update cleared and a buffer WANTED when its settings take messages (R145, R162); the
settings, the images, the list and the statistics stay, and the command waits. RESTART PORT (R101,
R178): INVALID_ID, WRONG_STATE unless the port is FAULTED; accepted, the port is RECOVERING, out of step
and with both lines released: in the recovery procedure from its first wait, or, with recovery disabled,
in a wait for the idle time; the command waits. That the idle wait counts no time before the command is
the model's choice (log entry 47). -/
def Obligations.EnableAndRestartPort : Prop :=
  ∀ (s : State) (e : List Byte),
    (Executing 0x07 e s →
      (4 ≤ (byteAt e 8).toNat → Answers .enablePort e .invalidId s) ∧
      ∀ p : PortId, (byteAt e 8).toNat = p.val →
        ((s.port p).state ≠ .off → Answers .enablePort e .wrongState s) ∧
        ((s.port p).state = .off → exec .enablePort s = .next
          (waitsAt e (.port p .enable) (s.modPort p fun P =>
            { P with
              state := .observing, enabling := true, busFree := false, inStep := false,
              awaitAddr := false, eng := Engine.reset, idleFrom := s.timebase,
              clockLowFrom := s.timebase, stuckDataFrom := s.timebase, reason := none,
              tgt := { P.tgt with
                transfer := .none, pointers := Vector.replicate 3 0,
                replies := Vector.replicate 3 { state := .empty, bytes := [] }, held := none,
                disableTold := false,
                atHand := if P.cfg.wantsBuffer then .wanted else .nothing } })))) ∧
    (Executing 0x09 e s →
      (4 ≤ (byteAt e 8).toNat → Answers .restartPort e .invalidId s) ∧
      ∀ p : PortId, (byteAt e 8).toNat = p.val →
        ((s.port p).state ≠ .faulted → Answers .restartPort e .wrongState s) ∧
        ((s.port p).state = .faulted → exec .restartPort s = .next
          (waitsAt e (.port p .restart) (s.modPort p fun P =>
            { P with
              state := .recovering, inStep := false, awaitAddr := false, sclDriven := false,
              sdaDriven := false, idleFrom := s.timebase, clockLowFrom := s.timebase,
              stuckDataFrom := s.timebase,
              recovery := if P.cfg.recovery then .waitScl s.timebase
                else .restartWait s.timebase }))))

/-- DISABLE PORT (R59, R94, R178): INVALID_ID, WRONG_STATE for a port that is OFF. With nothing in
service and the port IDLE, OBSERVING or FAULTED, the port enters OFF at once with both lines released
and the command completes SUCCESS; a buffer at hand is given back, its UNUSED record going to the
holding list when that has room (R164). TARGET and RECOVERING are told. With a transaction in an
attempt, in DRAINING or in POSTING in service, the port goes on with it, with the disable pending, and
the command waits; one in STAGING gets the pending result PORT_OFF, unless one is set, and one READY or
in RETRY_WAIT ends PORT_OFF, after which the port enters OFF. The HELD and WAITING transactions that
name the port and carry no mark are marked PORT_OFF. -/
def Obligations.DisablePort : Prop :=
  ∀ (s : State) (e : List Byte), Executing 0x08 e s →
    (4 ≤ (byteAt e 8).toNat → Answers .disablePort e .invalidId s) ∧
    ∀ p : PortId, (byteAt e 8).toNat = p.val →
      ((s.port p).state = .off → Answers .disablePort e .wrongState s) ∧
      ((s.port p).state ≠ .off → ∃ t, exec .disablePort s = .next t ∧
        ((s.port p).inService = none ∨ (∃ j v, (s.port p).inService = some j ∧ s.txn j = some v ∧
            (v.state = .staging ∨ v.state = .active ∨ v.state = .draining ∨ v.state = .posting)) →
          ∀ k u, s.txn k = some u → (u.state = .held ∨ u.state = .waiting) → u.mark = none →
            u.port = p → t.txn k = some { u with mark := some .portOff }) ∧
        ((s.port p).inService = none →
          ((s.port p).state = .idle ∨ (s.port p).state = .observing ∨ (s.port p).state = .faulted) →
          (t.port p).state = .off ∧ (t.port p).sclDriven = false ∧ (t.port p).sdaDriven = false ∧
          (t.port p).inStep = false ∧ (t.port p).disablePending = false ∧
          (t.port p).tgt.atHand = .nothing ∧ (t.port p).cfg = (s.port p).cfg ∧
          t.mgmt = (answered e .success 0 0 s).mgmt ∧ (∀ r, r ≠ p → t.port r = s.port r) ∧
          ((s.port p).tgt.atHand.buffer = none → t.comp = s.comp) ∧
          ∀ b, (s.port p).tgt.atHand = .present b → (s.port p).tgt.records = [] →
            (s.cq b.cq).state = .running →
            let r : ReceiveRecord := ⟨unusedRecord p b s.timebase, b.cq⟩
            (s.comp.holding.length < 32 → (t.port p).tgt.records = [] ∧
              t.comp = { s.comp with holding := s.comp.holding ++ [⟨r.record, r.cq, false, none⟩] }) ∧
            (32 ≤ s.comp.holding.length → t.comp = s.comp ∧
              (t.port p).tgt.records = [{ receive := r, message := false }])) ∧
        ((s.port p).inService = none →
          ((s.port p).state = .target ∨ (s.port p).state = .recovering) →
          (t.port p).tgt.disableTold = true ∧ (t.port p).state = (s.port p).state ∧
          t.mgmt = (waitsAt e (.port p .disable) s).mgmt) ∧
        (∀ k u, (s.port p).inService = some k → s.txn k = some u →
          (u.state = .active ∨ u.state = .draining ∨ u.state = .posting) →
          (t.port p).disablePending = true ∧ (t.port p).state = (s.port p).state ∧
          (t.port p).eng = (s.port p).eng ∧ t.mgmt = (waitsAt e (.port p .disable) s).mgmt) ∧
        (∀ k u, (s.port p).inService = some k → s.txn k = some u → u.state = .staging →
          t.port p = { s.port p with
            disablePending := true,
            pendingResult := if (s.port p).pendingResult = none then some (.portOff, 0)
              else (s.port p).pendingResult } ∧
          t.mgmt = (waitsAt e (.port p .disable) s).mgmt) ∧
        ∀ k u, (s.port p).inService = some k → s.txn k = some u →
          (u.state = .ready ∨ u.state = .retryWait) → CanPost s p u →
          ((s.port p).state = .idle ∨ (s.port p).state = .observing ∨ (s.port p).state = .faulted) →
          (s.port p).tgt.atHand.buffer = none →
          RecordPosted s t p k { u with
            state := .posting, result := .portOff, detail := 0, segIndex := 0, writeCount := 0,
            readCount := 0, endTime := s.timebase } ∧
          (t.port p).state = .off ∧ (t.port p).sclDriven = false ∧ (t.port p).sdaDriven = false ∧
          t.mgmt = (answered e .success 0 0 s).mgmt ∧
          ∀ j v, s.txn j = some v → (v.state = .held ∨ v.state = .waiting) → v.mark = none →
            v.port = p → t.txn j = some { v with mark := some .portOff })

/-- SET RECEIVE RING (R160, R179): INVALID_FIELD, then IN_USE while a port that is not OFF has target
enable, a fetch is in progress or a record waits; accepted in every state of the ring, the ring is
RUNNING with the base and size and counts 0, its status word is written, and the command waits for
that write. -/
def Obligations.SetReceiveRing : Prop :=
  ∀ (s : State) (e : List Byte), Executing 0x0A e s →
    ((rd64 e 16).toNat % 64 ≠ 0 ∨ (rd16 e 10).toNat ∉ [4, 8, 16, 32, 64, 128, 256, 512, 1024] →
      Answers .setReceiveRing e .invalidField s) ∧
    ((rd64 e 16).toNat % 64 = 0 → (rd16 e 10).toNat ∈ [4, 8, 16, 32, 64, 128, 256, 512, 1024] →
      ((∃ p, (s.port p).state ≠ .off ∧ (s.port p).cfg.targetEnable = true) ∨
          s.rx.fetch ≠ none ∨ s.rx.waiting ≠ none → Answers .setReceiveRing e .inUse s) ∧
      ((∀ p, (s.port p).state = .off ∨ (s.port p).cfg.targetEnable = false) →
        s.rx.fetch = none → s.rx.waiting = none → exec .setReceiveRing s = .next
          ((waitsAt e .statusWord { s with
            rx := { s.rx with
              state := .running, base := rd64 e 16, size := rd16 e 10, posted := 0, taken := 0,
              reason := .nothing } }).issued .rxStatus
            (.write [(s.statusSlot 14, statusWord 0 1 0 s.timebase)]) true)))

/-- WRITE IMAGE and SET REPLY name a port and a slot (INVALID_ID) of their role (WRONG_STATE), with a
length in range (INVALID_FIELD) (R180). WRITE IMAGE then reads its bytes from the buffer (R152). SET
REPLY replaces the reply of an EMPTY or LOADED slot at once and completes SUCCESS, and holds the bytes
and waits while the slot is READING (R154). -/
def Obligations.ImagesAndReplies : Prop :=
  ∀ (s : State) (e : List Byte) (p : PortId) (o : OwnId),
    (Executing 0x0B e s →
      (4 ≤ (byteAt e 8).toNat ∨ 3 ≤ (byteAt e 9).toNat → Answers .writeImage e .invalidId s) ∧
      ((byteAt e 8).toNat = p.val → (byteAt e 9).toNat = o.val →
        (((s.port p).cfg.slots.get o).role ≠ .image → Answers .writeImage e .wrongState s) ∧
        (((s.port p).cfg.slots.get o).role = .image →
          ((rd16 e 12).toNat = 0 ∨ 256 < (rd16 e 12).toNat ∨
              ((s.port p).cfg.slots.get o).imageLen.toNat <
                (rd16 e 10).toNat + (rd16 e 12).toNat →
            Answers .writeImage e .invalidField s) ∧
          (1 ≤ (rd16 e 12).toNat → (rd16 e 12).toNat ≤ 256 →
            (rd16 e 10).toNat + (rd16 e 12).toNat ≤
              ((s.port p).cfg.slots.get o).imageLen.toNat →
            exec .writeImage s = .next ((waitsAt e .hostAccess s).issued .cmdRead
              (.read [(rd64 e 16, (rd16 e 12).toNat)]) true))))) ∧
    (Executing 0x0C e s →
      (4 ≤ (byteAt e 8).toNat ∨ 3 ≤ (byteAt e 9).toNat → Answers .setReply e .invalidId s) ∧
      ((byteAt e 8).toNat = p.val → (byteAt e 9).toNat = o.val →
        (((s.port p).cfg.slots.get o).role ≠ .mailbox → Answers .setReply e .wrongState s) ∧
        (((s.port p).cfg.slots.get o).role = .mailbox →
          ((byteAt e 10).toNat = 0 ∨ 32 < (byteAt e 10).toNat →
            Answers .setReply e .invalidField s) ∧
          (1 ≤ (byteAt e 10).toNat → (byteAt e 10).toNat ≤ 32 →
            (((s.port p).tgt.replies.get o).state ≠ .reading → exec .setReply s = .next
              (answered e .success 0 0 (s.modTarget p fun T =>
                { T with
                  replies := upd T.replies o fun _ =>
                    { state := .loaded, bytes := (e.drop 16).take (byteAt e 10).toNat } }))) ∧
            (((s.port p).tgt.replies.get o).state = .reading → exec .setReply s = .next
              (waitsAt e (.update p) (s.modTarget p fun T =>
                { T with
                  held := some (.reply o ((e.drop 16).take (byteAt e 10).toNat)) })))))))

/-- DEFINE TRIGGER (R139): INVALID_ID for an entry above 31, WRONG_STATE for one that is ARMED or has an
instance outstanding; otherwise the 128 bytes of the definition are read from the buffer. SET TICK
(R125, R181): WRONG_STATE while an entry is ARMED, INVALID_FIELD below 9, otherwise TP is the value
and the command completes SUCCESS. -/
def Obligations.DefineTriggerAndSetTick : Prop :=
  ∀ (s : State) (e : List Byte),
    (Executing 0x0D e s →
      (32 ≤ (byteAt e 8).toNat → Answers .defineTrigger e .invalidId s) ∧
      ∀ t : TrigId, (byteAt e 8).toNat = t.val →
        ((s.trigger t).state = .armed ∨ (s.trigger t).outstanding = true →
          Answers .defineTrigger e .wrongState s) ∧
        ((s.trigger t).state ≠ .armed → (s.trigger t).outstanding = false →
          exec .defineTrigger s = .next ((waitsAt e .hostAccess s).issued .cmdRead
            (.read [(rd64 e 16, 128)]) true))) ∧
    (Executing 0x12 e s →
      ((∃ t, (s.trigger t).state = .armed) → Answers .setTick e .wrongState s) ∧
      ((∀ t, (s.trigger t).state ≠ .armed) →
        ((rd16 e 8).toNat < 9 → Answers .setTick e .invalidField s) ∧
        (9 ≤ (rd16 e 8).toNat → exec .setTick s = .next
          (answered e .success 0 0 { s with trig := { s.trig with tp := rd16 e 8 } }))))

/-- CLEAR TRIGGER (R142): INVALID_ID for an entry above 31, WRONG_STATE unless the entry is DISABLED
with no instance outstanding; accepted, every field of the entry is at its Reset value, so that it is
EMPTY and names no CQ, the command completes SUCCESS at once, and nothing else changes: the records in
the holding list stay. -/
def Obligations.ClearTrigger : Prop :=
  ∀ (s : State) (e : List Byte), Executing 0x10 e s →
    (32 ≤ (byteAt e 8).toNat → Answers .clearTrigger e .invalidId s) ∧
    ∀ t : TrigId, (byteAt e 8).toNat = t.val →
      (¬ ((s.trigger t).state = .disabled ∧ (s.trigger t).outstanding = false) →
        Answers .clearTrigger e .wrongState s) ∧
      ((s.trigger t).state = .disabled → (s.trigger t).outstanding = false →
        exec .clearTrigger s = .next
          (answered e .success 0 0 (s.modTrigger t fun _ => Trigger.reset)) ∧
        Trigger.reset.state = .empty ∧ Trigger.reset.template = none ∧
        ∀ n, (s.modTrigger t fun _ => Trigger.reset).comp.holding = s.comp.holding ∧
          ((∀ u, u ≠ t → (s.trigger u).state = .empty ∨ (s.trigger u).cq ≠ n) →
            ∀ u, ((s.modTrigger t fun _ => Trigger.reset).trigger u).state = .empty ∨
              ((s.modTrigger t fun _ => Trigger.reset).trigger u).cq ≠ n))

/-- ENABLE TRIGGERS (R125, R140): INVALID_ID when a named entry is EMPTY, and then no entry changes;
otherwise every named DISABLED entry is ARMED with FIRST pending, no failures counted, its
down-counter at its phase or its holdoff counter at 0 and no edge latched, every other entry is as
it was, the prescaler starts if no entry was ARMED before, and the command completes SUCCESS. A LEVEL
entry armed with its line low and no instance outstanding expires at once (R129); another does not.
DISABLE TRIGGERS (R121, R141): every named ARMED entry is DISABLED at once, its counters 0, its edge
discarded and FIRST clear, every other entry stays, the prescaler stops when none remains ARMED; the
command completes SUCCESS when no named entry has an instance outstanding, and waits otherwise. -/
def Obligations.EnableAndDisableTriggers : Prop :=
  ∀ (s : State) (e : List Byte),
    (∀ alerts : BitVec 4, Executing 0x0E e s →
      ((∃ t : TrigId, (rd32 e 8).getLsbD t.val = true ∧ (s.trigger t).state = .empty) →
        Answers (.enableTriggers alerts) e .invalidId s) ∧
      ((∀ t : TrigId, (rd32 e 8).getLsbD t.val = true → (s.trigger t).state ≠ .empty) →
        ∃ u, exec (.enableTriggers alerts) s = .next u ∧
          u.mgmt.command = none ∧
          u.mgmt.due = some (completionRecord e .success 0 0 s.timebase) ∧
          (∀ t : TrigId, (rd32 e 8).getLsbD t.val = true → (s.trigger t).state = .disabled →
            (u.trigger t).state = .armed ∧ (u.trigger t).first = true ∧
            (u.trigger t).consecutive = 0 ∧ (u.trigger t).latched = none ∧
            (u.trigger t).template = (s.trigger t).template ∧
            ((s.trigger t).kind = .periodic → (u.trigger t).downCounter = (s.trigger t).phase) ∧
            ((s.trigger t).kind = .alert → (u.trigger t).holdoffCtr = 0)) ∧
          (∀ t : TrigId, (rd32 e 8).getLsbD t.val = false ∨ (s.trigger t).state ≠ .disabled →
            u.trigger t = s.trigger t) ∧
          ((∀ t, (s.trigger t).state ≠ .armed) →
            (∃ t : TrigId, (rd32 e 8).getLsbD t.val = true ∧ (s.trigger t).state = .disabled) →
            u.trig.prescaler = some s.timebase) ∧
          ((∃ t, (s.trigger t).state = .armed) → u.trig.prescaler = s.trig.prescaler) ∧
          ∀ t : TrigId, (rd32 e 8).getLsbD t.val = true → (s.trigger t).state = .disabled →
            let E := s.trigger t
            (E.kind = .periodic ∨ E.alertMode = .edge ∨ alerts.getLsbD E.alertPort.val = false ∨
                E.outstanding = true →
              (u.trigger t).sequence = E.sequence ∧ (u.trigger t).outstanding = E.outstanding) ∧
            ∀ (k : SlotId) (r : Request), E.kind = .alert → E.alertMode = .level →
              alerts.getLsbD E.alertPort.val = true → E.outstanding = false → E.template = some r →
              t ∉ s.trig.tickDue → s.freeTriggerSlot = some k →
              (s.port (portOf r.port)).list.length < 32 →
              (∀ w : TrigId, w ≠ t → (rd32 e 8).getLsbD w.val = true →
                (s.trigger w).state = .disabled →
                (s.trigger w).kind = .periodic ∨ (s.trigger w).alertMode = .edge) →
              (u.trigger t).sequence = E.sequence + 1 ∧ (u.trigger t).outstanding = true ∧
              u.txn k = some (newInstance t E r E.sequence s.timebase s.timebase) ∧
              k ∈ (u.port (portOf r.port)).list)) ∧
    (Executing 0x0F e s →
      ∃ u, exec .disableTriggers s = .next u ∧
        (∀ t : TrigId, (rd32 e 8).getLsbD t.val = true → (s.trigger t).state = .armed →
          u.trigger t = { s.trigger t with
            state := .disabled, downCounter := 0, holdoffCtr := 0, latched := none, first := false,
            holdoffEnded := false }) ∧
        (∀ t : TrigId, (rd32 e 8).getLsbD t.val = false ∨ (s.trigger t).state ≠ .armed →
          u.trigger t = s.trigger t) ∧
        ((∃ t, (s.trigger t).state = .armed) →
          (∀ t : TrigId, (s.trigger t).state = .armed → (rd32 e 8).getLsbD t.val = true) →
          u.trig.prescaler = none) ∧
        ((∀ t : TrigId, (rd32 e 8).getLsbD t.val = true → (s.trigger t).outstanding = false) →
          u.mgmt = (answered e .success 0 0 s).mgmt) ∧
        ((∃ t : TrigId, (rd32 e 8).getLsbD t.val = true ∧ (s.trigger t).outstanding = true) →
          u.mgmt = (waitsAt e (.instances (rd32 e 8)) s).mgmt) ∧
        u = { s with trig := u.trig, mgmt := u.mgmt })

/-- ABORT (R58, R182): INVALID_ID for a queue number above 7 or an ABSENT queue. When no transaction of
the queue with the tag is in service, those HELD or WAITING without a mark are marked ABORTED and
counted in A, all others of the queue with the tag are counted in B, and the command completes SUCCESS;
nothing else changes. One in service, and no other with the tag: in STAGING it gets the pending result
ABORTED, READY or in RETRY_WAIT it ends ABORTED, and in an attempt with no outcome the engine is asked
for a stop (R82), A being 1; with a pending result set, in an attempt with an outcome or a stop decided,
and in DRAINING and POSTING it is too late, B being 1, and nothing else changes. A stop asked for in
OPENING before a repeated START closes the attempt with a STOP, the next segment counted as begun; in
OPENING before a START, and in BETWEEN, it ends the attempt at once (`StoppedAtOnce`). -/
def Obligations.AbortMarks : Prop :=
  ∀ (s : State) (e : List Byte), Executing 0x13 e s →
    (8 ≤ (byteAt e 8).toNat → Answers .abort e .invalidId s) ∧
    ∀ q : RqId, (byteAt e 8).toNat = q.val →
      ((s.rq q).state = .absent → Answers .abort e .invalidId s) ∧
      ((s.rq q).state ≠ .absent →
        (∀ k t, s.txn k = some t → t.origin = .rq q → t.req.tag = rd16 e 10 →
          t.state = .held ∨ t.state = .waiting ∨ t.state = .draining ∨ t.state = .posting ∨
            t.state = .malformed ∨ t.state = .recorded) →
        ∃ u, exec .abort s = .next u ∧
          u = { answered e .success
                  (BitVec.ofNat 32 (allSlots.filter fun k =>
                    match s.txn k with
                    | some t => t.origin == .rq q && t.req.tag == rd16 e 10 &&
                        (t.state == .held || t.state == .waiting) && t.mark.isNone
                    | none => false).length)
                  (BitVec.ofNat 32 (allSlots.filter fun k =>
                    match s.txn k with
                    | some t => t.origin == .rq q && t.req.tag == rd16 e 10 &&
                        !((t.state == .held || t.state == .waiting) && t.mark.isNone)
                    | none => false).length) s with
                slots := u.slots } ∧
          ∀ k t, s.txn k = some t →
            (t.origin = .rq q → t.req.tag = rd16 e 10 →
              (t.state = .held ∨ t.state = .waiting) → t.mark = none →
              u.txn k = some { t with mark := some .aborted }) ∧
            (t.origin ≠ .rq q ∨ t.req.tag ≠ rd16 e 10 ∨
                (t.state ≠ .held ∧ t.state ≠ .waiting) ∨ t.mark ≠ none →
              u.txn k = some t)) ∧
      ∀ (p : PortId) (k : SlotId) (t : Txn), (s.rq q).state ≠ .absent →
        (s.port p).inService = some k → s.txn k = some t → t.port = p → t.origin = .rq q →
        t.req.tag = rd16 e 10 →
        (∀ j u, j ≠ k → s.txn j = some u → u.origin ≠ .rq q ∨ u.req.tag ≠ rd16 e 10) →
        (t.state = .staging → (s.port p).pendingResult = none → exec .abort s = .next
          (answered e .success 1 0 (s.modPort p fun P =>
            { P with pendingResult := some (.aborted, 0) }))) ∧
        ((t.state = .ready ∨ t.state = .retryWait) → CanPost s p t →
          ∃ u, exec .abort s = .next u ∧ u.mgmt = (answered e .success 1 0 s).mgmt ∧
            RecordPosted s u p k { t with
              state := .posting, result := .aborted, detail := 0, segIndex := 0, writeCount := 0,
              readCount := 0, endTime := s.timebase }) ∧
        (t.state = .active →
          (s.port p).eng.phase ∈ [.addressing, .sending, .receiving, .checking, .closing] →
          (s.port p).eng.outcome = none → (s.port p).eng.stopReq = none →
          (s.port p).eng.quiet = false → exec .abort s = .next
            (answered e .success 1 0 (s.modPort p fun P =>
              { P with eng := { P.eng with
                stopReq := some .aborted, outcome := some (.result .aborted 0) } }))) ∧
        (t.state = .staging ∧ (s.port p).pendingResult ≠ none ∨
            t.state = .active ∧ ((s.port p).eng.outcome ≠ none ∨ (s.port p).eng.stopReq ≠ none) ∨
            t.state = .draining ∨ t.state = .posting →
          exec .abort s = .next (answered e .success 0 1 s)) ∧
        (t.state = .active → (s.port p).eng.outcome = none → (s.port p).eng.stopReq = none →
          (s.port p).eng.quiet = false →
          ((s.port p).eng.phase = .opening → (s.port p).eng.restart = true → exec .abort s = .next
            (answered e .success 1 0 (s.modPort p fun P => { P with eng := { P.eng with
              stopReq := some .aborted, outcome := some (.result .aborted 0), phase := .closing,
              segment := P.eng.segment + 1, restart := false } }))) ∧
          ((s.port p).eng.endsAtOnce → (s.port p).eng.readCount ≠ 0 ∨ CanPost s p t →
            ∃ u, exec .abort s = .next u ∧ u.mgmt = (answered e .success 1 0 s).mgmt ∧
              StoppedAtOnce .aborted s u p k t))

/-- The end of an access the command in hand waits for (R170): a buffer write that has ended completes
SUCCESS, a failed buffer access HOST_FAULT, and then nothing else changes; the bytes of a WRITE IMAGE
replace their part of the image, or are held while an IMAGE_READ of the slot is in progress (R152);
a definition sets its entry, DISABLED, or is refused INVALID_FIELD, or INVALID_ID for its target CQ
(R139); a status word write completes its command SUCCESS (R25, R107, R179), and after the last one of
a deleted completion queue its context is at its Reset values (R108). -/
def Obligations.CommandAccessEnds : Prop :=
  ∀ (s : State) (e : List Byte) (a : Access) (rest : List Access) (data : List Byte), Running s →
    (∃ pre post, s.accesses = pre ++ a :: post ∧ rest = pre ++ post ∧ a.forCommand = true ∧
      ∀ b ∈ pre, b.forCommand = false) →
    (s.mgmt.command = some { entry := e, phase := .hostAccess } →
      (a.kind = .cmdWrite →
        (EndsAs a true data.length →
          exec (.commandHostAccessEnd true data) s =
            .next ((answered e .success 0 0 s).inFlight rest)) ∧
        exec (.commandHostAccessEnd false data) s =
          .next ((answered e .hostFault 0 0 s).inFlight rest)) ∧
      (a.kind = .cmdRead →
        exec (.commandHostAccessEnd false data) s =
          .next ((answered e .hostFault 0 0 s).inFlight rest) ∧
        (∀ (p : PortId) (o : OwnId), EndsAs a true data.length → opcode e = 0x0B →
          (byteAt e 8).toNat = p.val → (byteAt e 9).toNat = o.val →
          (∀ d, (s.port p).tgt.transfer ≠ .imageRead o d) →
          exec (.commandHostAccessEnd true data) s = .next
            ((answered e .success 0 0 (s.modTarget p fun T =>
              { T with
                images := upd T.images o fun i => overlay i (rd16 e 10).toNat data })).inFlight
              rest)) ∧
        (∀ (p : PortId) (o : OwnId) (d : Bool), EndsAs a true data.length → opcode e = 0x0B →
          (byteAt e 8).toNat = p.val → (byteAt e 9).toNat = o.val →
          (s.port p).tgt.transfer = .imageRead o d →
          exec (.commandHostAccessEnd true data) s = .next
            ((waitsAt e (.update p) (s.modTarget p fun T =>
              { T with held := some (.image o (rd16 e 10).toNat data) })).inFlight rest)) ∧
        (∀ t : TrigId, EndsAs a true data.length → opcode e = 0x0D →
          (byteAt e 8).toNat = t.val →
          (parseDefinition data = none → exec (.commandHostAccessEnd true data) s =
            .next ((answered e .invalidField 0 0 s).inFlight rest)) ∧
          ∀ E, parseDefinition data = some E →
            (4 ≤ (byteAt data 81).toNat → exec (.commandHostAccessEnd true data) s =
              .next ((answered e .invalidId 0 0 s).inFlight rest)) ∧
            ∀ n : CqId, (byteAt data 81).toNat = n.val →
              ((s.cq n).state = .absent → exec (.commandHostAccessEnd true data) s =
                .next ((answered e .invalidId 0 0 s).inFlight rest)) ∧
              ((s.cq n).state ≠ .absent → exec (.commandHostAccessEnd true data) s =
                .next ((answered e .success 0 0 (s.modTrigger t fun _ =>
                  { E with cq := n })).inFlight rest))))) ∧
    (s.mgmt.command = some { entry := e, phase := .statusWord } →
      (a.kind = .rxStatus ∨ (∃ q, a.kind = .rqStatus q) ∨ ∃ n, a.kind = .cqStatus n .create) →
      EndsAs a true data.length →
      exec (.commandHostAccessEnd true data) s =
        .next ((answered e .success 0 0 s).inFlight rest)) ∧
    (∀ (n : CqId) (ok : Bool), s.mgmt.command = some { entry := e, phase := .statusWord } →
      a.kind = .cqStatus n .delete → EndsAs a ok data.length →
      exec (.commandHostAccessEnd ok data) s =
        .next ((answered e .success 0 0 (s.modCq n fun _ => CqCtx.reset)).inFlight rest))

/-! ### Request queues and the fetch unit (chapter 2) -/

/-- A turn (R30, R31, R32): with no turn in progress and no stall, the first eligible queue from the one
after the last served is served: a request slot is reserved and the entry at the taken count is read
from its ring. Without an eligible queue nothing happens. The slot reserved is the lowest free one
(log entry 9). -/
def Obligations.FetchTurns : Prop :=
  ∀ s : State, Running s →
    (s.fetch.turn ≠ none ∨ s.fetch.stalled ≠ none ∨ (∀ r, (s.rq r).state ≠ .running ∨
        (s.rq r).posted = (s.rq r).taken ∨ (s.rq r).hold ≠ none) ∨ s.freeRequestSlot = none →
      exec .fetchTurn s = .next s) ∧
    ∀ (q : RqId) (k : SlotId) (pre post : List RqId), s.fetch.turn = none →
      s.fetch.stalled = none → after s.fetch.lastServed = pre ++ q :: post →
      (∀ r ∈ pre, (s.rq r).state ≠ .running ∨ (s.rq r).posted = (s.rq r).taken ∨
        (s.rq r).hold ≠ none) →
      (s.rq q).state = .running → (s.rq q).posted ≠ (s.rq q).taken →
      ((s.rq q).posted - (s.rq q).taken).toNat ≤ (s.rq q).size.toNat → (s.rq q).hold = none →
      s.freeRequestSlot = some k →
      exec .fetchTurn s = .next
        ({ s with
          slots := upd s.slots k fun _ => .reserved,
          fetch := { s.fetch with
            lastServed := q, turn := some { q := q, count := 0, slot := k } } }.issued (.rqEntry q)
          (.read [((s.rq q).base +
            BitVec.ofNat 64 (64 * ((s.rq q).taken.toNat % (s.rq q).size.toNat)), 64)]) false)

/-- The end of an entry read, and of a status word write (R11, R22, R28, R29, R32, R33, R36, R37). A
well-formed entry of a queue that is not being deleted is taken: the counts rise, its transaction enters
its slot, waiting in its port's list when its fence is satisfied and the list has room, and held
otherwise. A malformed one goes to the holding list with the reason and segment of R10. After the last
entry the weight allows the turn ends, and the status word is written. While the weight allows a further
entry and the queue is still eligible, the next entry is read in the same turn and no status word is
written (R31; the slot is the lowest free one, log entry 9). An entry of a queue in DELETING is taken
marked FLUSHED (R42). That its turn, when it ends, writes the status word for the entries taken, beside
the write of the change to DELETING, is the model's choice (log entry 52). A read that fails frees the
slot, leaves the taken count, and takes the queue to ERROR with ENTRY_READ; in DELETING it changes no
state, and the status word is written if the turn took an entry. A failed status word write takes a
RUNNING queue to ERROR with STATUS_WRITE, and one status word is written for that change; when that
write fails nothing follows, whatever the state is by then (log entry 56: the model's reading). -/
def Obligations.EntryReadsEnd : Prop :=
  ∀ (s : State) (a : Access) (rest : List Access) (tn : Turn) (e : Vector Byte 64), Live s →
    (InFlight (fun k => match k with | .rqEntry _ => true | _ => false) 0 s a rest →
      s.fetch.turn = some tn → (s.rq tn.q).state = .running →
      (EndsAs a true 64 → (s.rq tn.q).weight.toNat ≤ tn.count + 1 →
        (malformation (parseRequest e.toList) = none → (parseRequest e.toList).urgent = false →
          ∀ p : PortId, (parseRequest e.toList).port.toNat = p.val →
          ∃ u t, exec (.rqEntryReadEnd true e) s = .next u ∧ u.txn tn.slot = some t ∧
            t.req = parseRequest e.toList ∧ t.origin = .rq tn.q ∧ t.port = p ∧
            t.cq = (s.rq tn.q).cq ∧ t.mark = none ∧ t.takenAt = s.timebase ∧ t.attempts = 0 ∧
            (u.rq tn.q).taken = (s.rq tn.q).taken + 1 ∧
            (u.rq tn.q).openCount = (s.rq tn.q).openCount + 1 ∧ u.fetch.turn = none ∧
            u.accesses = rest ++ [⟨.rqStatus tn.q, .write [(s.statusSlot (2 + tn.q.val),
              statusWord ((s.rq tn.q).taken + 1) 1 (s.rq tn.q).reason.code s.timebase)],
              s.timebase, false, !s.link.busMaster, false⟩] ∧
            (((parseRequest e.toList).fence = false ∨ (s.rq tn.q).openCount = 0) →
              (s.port p).list.length < 32 → t.state = .waiting ∧
              (u.port p).list = (s.port p).list ++ [tn.slot] ∧
              (u.rq tn.q).hold = (s.rq tn.q).hold) ∧
            (((parseRequest e.toList).fence = true ∧ 1 ≤ (s.rq tn.q).openCount ∨
                32 ≤ (s.port p).list.length) → t.state = .held ∧
              (u.port p).list = (s.port p).list ∧ (u.rq tn.q).hold = some tn.slot) ∧
            (∀ r, r ≠ tn.q → u.rq r = s.rq r) ∧ (∀ r, r ≠ p → u.port r = s.port r) ∧
            ∀ j, j ≠ tn.slot → u.slots.get j = s.slots.get j) ∧
        (∀ d i, malformation (parseRequest e.toList) = some (d, i) →
          (s.cq (s.rq tn.q).cq).state = .running → s.comp.holding.length < 32 →
          ∃ u t, exec (.rqEntryReadEnd true e) s = .next u ∧ u.txn tn.slot = some t ∧
            t.state = .recorded ∧ t.result = .malformed ∧ t.detail = d ∧ t.segIndex = i ∧
            t.attempts = 0 ∧ t.req = parseRequest e.toList ∧
            u.comp.holding = s.comp.holding ++
              [⟨txnRecord t, (s.rq tn.q).cq, (parseRequest e.toList).notify, some tn.slot⟩] ∧
            (u.rq tn.q).taken = (s.rq tn.q).taken + 1 ∧ u.fetch.turn = none ∧
            u.ports = s.ports)) ∧
      ∃ u, exec (.rqEntryReadEnd false e) s = .next u ∧ u.slots.get tn.slot = .free ∧
        (u.rq tn.q).state = .error ∧ (u.rq tn.q).reason = .entryRead ∧
        (u.rq tn.q).taken = (s.rq tn.q).taken ∧ u.fetch.turn = none ∧
        ∃ x ∈ u.mgmt.latches, x.latch = .rqError tn.q) ∧
    (InFlight (fun k => match k with | .rqEntry _ => true | _ => false) 0 s a rest →
      s.fetch.turn = some tn →
      ∀ p : PortId, malformation (parseRequest e.toList) = none →
        (parseRequest e.toList).urgent = false → (parseRequest e.toList).port.toNat = p.val →
        ((parseRequest e.toList).fence = false ∨ (s.rq tn.q).openCount = 0) →
        (s.port p).list.length < 32 → EndsAs a true 64 →
        (∀ k, s.link.ctrl = .running → (s.rq tn.q).state = .running → (s.rq tn.q).hold = none →
          s.fetch.stalled = none → tn.count + 1 < (s.rq tn.q).weight.toNat →
          (s.rq tn.q).posted ≠ (s.rq tn.q).taken + 1 →
          ((s.rq tn.q).posted - ((s.rq tn.q).taken + 1)).toNat ≤ (s.rq tn.q).size.toNat →
          s.slots.get tn.slot ≠ .free → s.freeRequestSlot = some k →
          ∃ u t, exec (.rqEntryReadEnd true e) s = .next u ∧ u.txn tn.slot = some t ∧
            t.req = parseRequest e.toList ∧ t.state = .waiting ∧ t.mark = none ∧
            (u.port p).list = (s.port p).list ++ [tn.slot] ∧
            (u.rq tn.q).taken = (s.rq tn.q).taken + 1 ∧
            (u.rq tn.q).openCount = (s.rq tn.q).openCount + 1 ∧ u.slots.get k = .reserved ∧
            u.fetch.turn = some { q := tn.q, count := tn.count + 1, slot := k } ∧
            u.accesses = rest ++ [⟨.rqEntry tn.q, .read [((s.rq tn.q).base + BitVec.ofNat 64
              (64 * (((s.rq tn.q).taken + 1).toNat % (s.rq tn.q).size.toNat)), 64)],
              s.timebase, false, !s.link.busMaster, false⟩]) ∧
        ((s.rq tn.q).state = .deleting →
          ∃ u t, exec (.rqEntryReadEnd true e) s = .next u ∧ u.txn tn.slot = some t ∧
            t.req = parseRequest e.toList ∧ t.state = .waiting ∧ t.mark = some .flushed ∧
            (u.port p).list = (s.port p).list ++ [tn.slot] ∧
            u.rq tn.q = { s.rq tn.q with
              taken := (s.rq tn.q).taken + 1, openCount := (s.rq tn.q).openCount + 1 } ∧
            u.fetch.turn = none ∧
            u.accesses = rest ++ [⟨.rqStatus tn.q, .write [(s.statusSlot (2 + tn.q.val),
              statusWord ((s.rq tn.q).taken + 1) 3 (s.rq tn.q).reason.code s.timebase)],
              s.timebase, false, !s.link.busMaster, false⟩])) ∧
    (InFlight (fun k => match k with | .rqEntry _ => true | _ => false) 0 s a rest →
      s.fetch.turn = some tn → (s.rq tn.q).state = .deleting → (s.rq tn.q).openCount ≠ 0 →
      let ended : State := { (s.inFlight rest).setSlot tn.slot .free with
        fetch := { s.fetch with turn := none } }
      exec (.rqEntryReadEnd false e) s = .next
        (if tn.count = 0 then ended
         else ended.issued (.rqStatus tn.q) (.write [(s.statusSlot (2 + tn.q.val),
           statusWord (s.rq tn.q).taken 3 (s.rq tn.q).reason.code s.timebase)]) false)) ∧
    ∀ (q : RqId) (k : Nat), InFlight (· == .rqStatus q) k s a rest → a.forCommand = false →
      (EndsAs a true 0 →
        exec (.rqStatusWordWriteEnd q k true) s = .next (s.inFlight rest)) ∧
      ((s.rq q).state = .running → a.further = false →
        ∃ u, exec (.rqStatusWordWriteEnd q k false) s = .next u ∧
        u.rq q = { s.rq q with state := .error, reason := .statusWrite } ∧
        (∃ x ∈ u.mgmt.latches, x.latch = .rqError q) ∧
        u.accesses = rest ++ [⟨.rqStatus q, .write [(s.statusSlot (2 + q.val),
          statusWord (s.rq q).taken 2 4 s.timebase)], s.timebase, false, !s.link.busMaster, true⟩]) ∧
      ((s.rq q).state ≠ .running ∨ a.further = true →
        exec (.rqStatusWordWriteEnd q k false) s = .next (s.inFlight rest))

/-! ### Port scheduling (chapter 3) -/

/-- The place of an insertion (R45): a transaction that is not urgent goes to the tail; an urgent one
directly behind the last that is urgent or of its own origin, and if there is none, directly behind the
in-service one or at the front. All instances share one origin. Nothing else moves, and the in-service
transaction, which stands first, is never displaced, whatever mark the new one carries. -/
def Obligations.InsertionKeepsTheOrder : Prop :=
  ∀ (s : State) (k : SlotId) (t : Txn),
    (∀ j, (s.port t.port).inService = some j → (s.port t.port).list.head? = some j) →
    ∃ pre post, (s.port t.port).list = pre ++ post ∧
      ((insertTxn k t s).port t.port).list = pre ++ k :: post ∧
      (∀ q, q ≠ t.port → (insertTxn k t s).port q = s.port q) ∧
      (insertTxn k t s).txn k = some { t with state := .waiting } ∧
      (t.req.urgent = false → post = []) ∧
      (t.req.urgent = true →
        (∀ j u, j ∈ post → s.txn j = some u →
          u.req.urgent = false ∧ u.origin ≠ t.origin ∧
          (u.origin.isRequest = true ∨ t.origin.isRequest = true)) ∧
        (pre = [] ∨ (s.port t.port).inService = pre.head? ∧ pre.length = 1 ∨
          ∃ j u, pre.getLast? = some j ∧ s.txn j = some u ∧
            (u.req.urgent = true ∨ u.origin = t.origin ∨
              (u.origin.isRequest = false ∧ t.origin.isRequest = false)))) ∧
      ∀ j, (s.port t.port).inService = some j →
        ((insertTxn k t s).port t.port).list.head? = some j

/-- Dispatch (R48, R49, R124) takes the first transaction of the list into service, with nothing in
service and no disable pending: a marked one completes with its mark's result and one on a port OFF or
FAULTED with PORT_OFF, with counts 0 and the present as its end; an instance has its write bytes and is
READY, as is a request without write bytes; any other request has them read and is STAGING. When the
transaction leaves the list at once, its place goes to the first hold, from the queue after the one last
placed on the port, whose transaction waits for the port with its fence satisfied; that queue is the one
last placed, and the other holds stay (R38, R39). -/
def Obligations.DispatchTakesTheFirst : Prop :=
  ∀ (s : State) (p : PortId) (k : SlotId) (l : List SlotId) (t : Txn), Running s →
    ((s.port p).inService ≠ none ∨ (s.port p).disablePending = true ∨ (s.port p).list = [] →
      exec (.dispatch p) s = .next s) ∧
    ((s.port p).inService = none → (s.port p).disablePending = false → (s.port p).list = k :: l →
      s.txn k = some t →
      (∀ r, CanPost s p t → (t.mark = some r ∨
          t.mark = none ∧ r = .portOff ∧ ((s.port p).state = .off ∨ (s.port p).state = .faulted)) →
        r ≠ .ok → ∃ u, exec (.dispatch p) s = .next u ∧
          RecordPosted s u p k { t with
            state := .posting, result := r, detail := 0, segIndex := 0, writeCount := 0,
            readCount := 0, endTime := s.timebase }) ∧
      (∀ (r : Result) (o q : RqId) (j : SlotId) (v : Txn) (pre post : List RqId), t.origin = .rq o →
        t.mark = some r → r ≠ .ok → (s.cq t.cq).state = .running → s.comp.holding.length < 32 →
        after (s.fetch.placed.get p) = pre ++ q :: post →
        (∀ x ∈ pre, ∀ i w, (s.rq x).hold = some i → s.txn i = some w →
          w.port ≠ p ∨ w.req.fence = true ∧ 2 ≤ (s.rq x).openCount) →
        (s.rq q).hold = some j → j ≠ k → s.txn j = some v → v.port = p → v.req.urgent = false →
        (v.req.fence = false ∨ (s.rq q).openCount ≤ 1) → l.length < 32 →
        ∃ u, exec (.dispatch p) s = .next u ∧ (u.port p).list = l ++ [j] ∧
          u.txn j = some { v with state := .waiting } ∧ u.rq q = { s.rq q with hold := none } ∧
          u.fetch.placed.get p = q ∧ ∀ x, x ≠ q → u.rq x = s.rq x) ∧
      (t.mark = none → (s.port p).state ≠ .off → (s.port p).state ≠ .faulted →
        (∀ d, t.trig = some d → exec (.dispatch p) s = .next
          ((s.modPort p fun P => { P with
            inService := some k, pendingResult := none, inbound := [],
            outbound := writeAreaBytes t.req d.writeData }).setSlot k
            (.txn { t with state := .ready }))) ∧
        (t.trig = none → t.req.writeBytes = 0 → exec (.dispatch p) s = .next
          ((s.modPort p fun P => { P with
            inService := some k, pendingResult := none, outbound := [], inbound := [] }).setSlot k
            (.txn { t with state := .ready }))) ∧
        (t.trig = none → t.req.writeBytes ≠ 0 → exec (.dispatch p) s = .next
          (((s.modPort p fun P => { P with
            inService := some k, pendingResult := none, outbound := [], inbound := [] }).setSlot k
            (.txn { t with state := .staging })).issued (.staging p)
            (.read (stagingRanges t.req)) false))))

/-- The end of the staging read and of the draining write (R49, R50, R53): the bytes read enter outbound
staging and the transaction is READY; a pending result ends it instead; a failed read ends it
HOST_FAULT with detail STAGING, and a failed draining write replaces its result by HOST_FAULT with
detail DRAINING. With SUPPRESS and the result OK the draining write's end completes the transaction
without a record (R22, R54). -/
def Obligations.StagingAndDrainingEnd : Prop :=
  ∀ (s : State) (p : PortId) (k : SlotId) (t : Txn) (a : Access) (rest : List Access)
    (data : List Byte), Live s → (s.port p).inService = some k → s.txn k = some t →
    (InFlight (· == .staging p) 0 s a rest → t.state = .staging →
      (EndsAs a true data.length → (s.port p).pendingResult = none →
        exec (.stagingReadEnd p true data) s = .next
          (((s.inFlight rest).modPort p fun P => { P with outbound := data }).setSlot k
            (.txn { t with state := .ready }))) ∧
      (∀ ok r d, CanPost s p t → EndsAs a ok data.length →
        ((s.port p).pendingResult = some (r, d) ∨
          (s.port p).pendingResult = none ∧ ok = false ∧ r = .hostFault ∧ d = 1) → r ≠ .ok →
        ∃ u, exec (.stagingReadEnd p ok data) s = .next u ∧
          RecordPosted s u p k { t with
            state := .posting, result := r, detail := d, segIndex := 0, writeCount := 0,
            readCount := 0, endTime := s.timebase })) ∧
    (InFlight (· == .draining p) 0 s a rest → t.state = .draining → EndsAs a true 0 →
      ∀ q, t.origin = .rq q → t.result = .ok → t.req.suppress = true → LeavesAlone s p →
        (s.rq q).state ≠ .deleting →
        ∃ u, exec (.drainingWriteEnd p true) s = .next u ∧ Suppressed s u p k q) ∧
    (InFlight (· == .draining p) 0 s a rest → t.state = .draining → t.trig = none →
      CanPost s p t →
      (EndsAs a true 0 → t.result ≠ .ok ∨ t.req.suppress = false →
        ∃ u, exec (.drainingWriteEnd p true) s = .next u ∧
          RecordPosted s u p k { t with state := .posting }) ∧
      ∃ u, exec (.drainingWriteEnd p false) s = .next u ∧
        RecordPosted s u p k
          { t with state := .posting, result := .hostFault, detail := 2 })

/-- The retry gap (R52) and deadlines (R13, R57). After retry_gap × 100 µs a transaction in RETRY_WAIT
is READY; before that nothing happens. A deadline that has passed marks a HELD or WAITING transaction,
sets the pending result of one in STAGING, ends one READY or in RETRY_WAIT with DEADLINE, and asks the
engine for a stop while an attempt with no outcome runs (R82); while an attempt closes with a retry
decision the engine goes on, and the transaction ends DEADLINE when the attempt has ended (log entry 45:
the model's reading). A stop asked for in OPENING before a repeated START closes the attempt with a
STOP, the next segment counted as begun; in OPENING before a START, and in BETWEEN, it ends the attempt
at once (`StoppedAtOnce`). With deadline 0, before its time or on a marked transaction nothing happens. -/
def Obligations.GapsAndDeadlinesExpire : Prop :=
  ∀ (s : State) (p : PortId) (k : SlotId) (t : Txn), s.txn k = some t →
    (Live s → (s.port p).inService = some k → t.state = .retryWait →
      (t.req.retryGap.toNat * 100 ≤ (s.timebase - t.gapFrom).toNat →
        exec (.retryGapExpiry p) s = .next (s.setSlot k (.txn { t with state := .ready }))) ∧
      ((s.timebase - t.gapFrom).toNat < t.req.retryGap.toNat * 100 →
        exec (.retryGapExpiry p) s = .next s)) ∧
    (Running s →
      (t.req.deadline = 0 ∨ t.mark ≠ none ∨
          (s.timebase - t.takenAt).toNat < t.req.deadline.toNat * 1000 →
        exec (.deadlineExpiry k) s = .next s) ∧
      (t.req.deadline ≠ 0 → t.mark = none →
        t.req.deadline.toNat * 1000 ≤ (s.timebase - t.takenAt).toNat →
        ((t.state = .held ∨ t.state = .waiting) → exec (.deadlineExpiry k) s =
          .next (s.setSlot k (.txn { t with mark := some .deadline }))) ∧
        (t.state = .staging → exec (.deadlineExpiry k) s = .next (s.modPort t.port fun P =>
          { P with
            pendingResult :=
              if P.pendingResult = none then some (.deadline, 0) else P.pendingResult })) ∧
        ((t.state = .ready ∨ t.state = .retryWait) → (s.port t.port).inService = some k →
          t.trig = none → CanPost s t.port t → ∃ u, exec (.deadlineExpiry k) s = .next u ∧
            RecordPosted s u t.port k { t with
              state := .posting, result := .deadline, detail := 0, segIndex := 0,
              writeCount := 0, readCount := 0, endTime := s.timebase }) ∧
        (t.state = .active → (s.port t.port).eng.outcome = none →
          (s.port t.port).eng.stopReq = none → (s.port t.port).eng.quiet = false →
          (s.port t.port).eng.phase ∈ [.addressing, .sending, .receiving, .checking, .closing] →
          exec (.deadlineExpiry k) s = .next (s.modPort t.port fun P =>
            { P with eng := { P.eng with
              stopReq := some .deadline, outcome := some (.result .deadline 0) } })) ∧
        (t.state = .active → (s.port t.port).eng.outcome = none →
          (s.port t.port).eng.stopReq = none → (s.port t.port).eng.quiet = false →
          ((s.port t.port).eng.phase = .opening → (s.port t.port).eng.restart = true →
            exec (.deadlineExpiry k) s = .next (s.modPort t.port fun P =>
              { P with eng := { P.eng with
                stopReq := some .deadline, outcome := some (.result .deadline 0), phase := .closing,
                segment := P.eng.segment + 1, restart := false } })) ∧
          ((s.port t.port).eng.endsAtOnce → (s.port t.port).inService = some k →
            (∃ q, t.origin = .rq q) → (s.port t.port).eng.readCount ≠ 0 ∨ CanPost s t.port t →
            ∃ u, exec (.deadlineExpiry k) s = .next u ∧ StoppedAtOnce .deadline s u t.port k t)) ∧
        (t.state = .active → (s.port t.port).eng.outcome = some .retry →
          exec (.deadlineExpiry k) s = .next (s.modPort t.port fun P =>
            { P with eng := { P.eng with outcome := some .retryExpired } }))))

/-! ### The master engine (chapter 4) -/

/-- Beginning an attempt (R64), the START (R67), the repeated START (R68) and the opening of a segment
after BETWEEN (R77): the port, IDLE with the monitor FREE, passes to MASTER for an attempt of a READY
transaction, whose attempts rise with the port's, the port's timeout timers set back; START takes the
start time of the first attempt; a repeated START and a segment opened after BETWEEN count the next
segment from its first byte. Both make the verdict BUSY (R88). A START or repeated START not won is a
loss (R67, R68, R78): the lines are released, the loss is counted, the port is OBSERVING, and the
attempt ends with a retry while an arbitration retry remains and otherwise ARB_LOST, detail START or
RESTART, with the segment it was opening. Without these conditions nothing happens: the model's choice
(log entry 7); and so is that a line found low comes as such a loss, after which no address byte is due
and the verdict stays (log entry 20). -/
def Obligations.AttemptsOpen : Prop :=
  ∀ (s : State) (p : PortId) (k : SlotId) (t : Txn),
    (s.port p).inService = some k → s.txn k = some t →
    (Running s →
      (t.state = .ready → (s.port p).state = .idle → (s.port p).busFree = true →
        (s.port p).eng.phase = .none →
        exec (.attemptBegin p) s = .next
          ((s.modPort p fun P => { P with
            state := .master, inbound := [], eng := { Engine.reset with phase := .opening },
            clockLowFrom := s.timebase, stuckDataFrom := s.timebase, tied := [],
            stats := { P.stats with attempts := P.stats.attempts + 1 } }).setSlot k
            (.txn { t with state := .active, attempts := t.attempts + 1 }))) ∧
      (t.state ≠ .ready ∨ (s.port p).state ≠ .idle ∨ (s.port p).busFree = false →
        exec (.attemptBegin p) s = .next s) ∧
      ((s.port p).eng.phase = .between → (s.port p).state = .idle → (s.port p).busFree = true →
        exec (.segmentOpen p) s = .next (s.modPort p fun P => { P with
          state := .master, clockLowFrom := s.timebase, stuckDataFrom := s.timebase, tied := [],
          eng := { P.eng with
            phase := .opening, segment := P.eng.segment + 1, bytePos := 0, countRecv := none,
            restart := false } })) ∧
      ((s.port p).eng.phase ≠ .between ∨ (s.port p).state ≠ .idle ∨ (s.port p).busFree = false →
        exec (.segmentOpen p) s = .next s)) ∧
    (Awake s → (s.port p).eng.phase = .opening →
      ((s.port p).eng.restart = false → exec (.masterStart p true) s = .next
        ((s.modPort p fun P => { P with
          eng := { P.eng with phase := .addressing }, busFree := false, sclDriven := true,
          sdaDriven := true, idleFrom := s.timebase, clockLowFrom := s.timebase,
          stuckDataFrom := s.timebase }).setSlot k
          (.txn { t with started := some (t.started.getD s.timebase) }))) ∧
      ((s.port p).eng.restart = true → exec (.repeatedStart p true) s = .next
        (s.modPort p fun P => { P with
          eng := { P.eng with
            phase := .addressing, segment := P.eng.segment + 1, bytePos := 0, countRecv := none,
            restart := false },
          busFree := false, sclDriven := true, sdaDriven := true, idleFrom := s.timebase,
          clockLowFrom := s.timebase, stuckDataFrom := s.timebase }))) ∧
    ((s.port p).eng.phase ≠ .opening ∨ (s.port p).eng.restart = true →
      ∀ won, exec (.masterStart p won) s = .next s) ∧
    ((s.port p).eng.phase ≠ .opening ∨ (s.port p).eng.restart = false →
      ∀ won, exec (.repeatedStart p won) s = .next s) ∧
    ∀ (c : Instr) (place : LossPlace) (segment : Nat), Awake s → (s.port p).eng.phase = .opening →
      ((c, place, segment) = (.masterStart p false, .start, (s.port p).eng.segment) ∧
          (s.port p).eng.restart = false ∨
        (c, place, segment) = (.repeatedStart p false, .restart, (s.port p).eng.segment + 1) ∧
          (s.port p).eng.restart = true) →
      (s.port p).eng.outcome = none → (s.port p).eng.quiet = false →
      (s.port p).disablePending = false →
      (t.arbUsed < t.req.arbRetries.toNat → exec c s = .next
        ((s.modPort p fun P => { P with
          state := .observing, awaitAddr := false, sclDriven := false, sdaDriven := false,
          inbound := [], eng := Engine.reset, idleFrom := s.timebase, clockLowFrom := s.timebase,
          stuckDataFrom := s.timebase, tied := P.tied ++ s.timeoutsReached p,
          stats := { P.stats with arbLosses := P.stats.arbLosses + 1 } }).setSlot k
          (.txn { t with
            arbUsed := t.arbUsed + 1, started := some (t.started.getD s.timebase),
            gapFrom := s.timebase,
            state := if t.req.retryGap = 0 then .ready else .retryWait }))) ∧
      (t.req.arbRetries.toNat ≤ t.arbUsed → (s.port p).eng.readCount = 0 → CanPost s p t →
        ∃ u, exec c s = .next u ∧
          RecordPosted s u p k { t with
            state := .posting, started := some (t.started.getD s.timebase), result := .arbLost,
            detail := lossDetail place, segIndex := segment,
            writeCount := (s.port p).eng.writeCount, readCount := 0, endTime := s.timebase } ∧
          (u.port p).state = .observing ∧ (u.port p).awaitAddr = false ∧
          (u.port p).busFree = (s.port p).busFree ∧ (u.port p).sclDriven = false ∧
          (u.port p).sdaDriven = false ∧ (u.port p).eng = Engine.reset ∧
          (u.port p).tied = (s.port p).tied ++ s.timeoutsReached p ∧
          (u.port p).stats.arbLosses = (s.port p).stats.arbLosses + 1)

/-- What the engine sends (R12, R16, R72, R73, R83). The address byte of a segment carries its direction
in bit 0; acknowledged, data follows, or the segment is over when a WRITE has length 0; refused, the
attempt closes, retrying while NACK retries remain and otherwise with ADDR_NACK. A WRITE byte comes from
outbound staging; acknowledged it is counted; refused it decides DATA_NACK unless the segment ignores
refusals. Both refusals are counted by the port. Either byte advances the check value when CHK is set.
After the last byte of a segment the check byte, a repeated START or a STOP follows (R76, R77). After a
stop request with its result decided, or with the engine quiet from a halt or a controller stop (R85),
the byte under way is finished and counted as it went, the attempt goes to its STOP, a refusal retries
nothing and the outcome stays as it is; the address byte of a read acknowledged, one byte is still
received (R82, R83). -/
def Obligations.BytesAreSent : Prop :=
  ∀ (s : State) (p : PortId) (k : SlotId) (t : Txn) (ack : Bool), Awake s →
    (s.port p).inService = some k → s.txn k = some t →
    let E := (s.port p).eng
    let g := t.req.seg E.segment
    let sent (b : Byte) (nacks : Stats → Stats) (E' : Engine) : State :=
      s.modPort p fun P => { P with
        lastSent := some b, sclDriven := true, sdaDriven := false, idleFrom := s.timebase,
        clockLowFrom := s.timebase, stuckDataFrom := s.timebase, stats := nacks P.stats, eng := E' }
    let check (b : Byte) : Byte := if t.req.chk then crcByte E.crc b else E.crc
    let closed : Engine → Engine := fun E =>
      if g.join then { E with phase := .opening, restart := true } else { E with phase := .closing }
    let ended : Engine → Engine := fun E' =>
      if t.req.chk && decide (E.segment + 1 = t.req.nseg.toNat) then { E' with phase := .checking }
      else closed E'
    (E.stopReq = none → E.quiet = false → E.outcome = none →
      (E.phase = .addressing →
        let b : Byte := g.addr ++ (if g.kind = .write then 0#1 else 1#1)
        let E₁ := { E with crc := check b }
        (ack = true →
          (g.kind = .write → g.length ≠ 0 →
            exec (.masterAddressByte p ack) s = .next (sent b id { E₁ with phase := .sending })) ∧
          (g.kind = .write → g.length = 0 →
            exec (.masterAddressByte p ack) s = .next (sent b id (closed E₁))) ∧
          (g.kind ≠ .write →
            exec (.masterAddressByte p ack) s = .next (sent b id { E₁ with phase := .receiving }))) ∧
        (ack = false →
          (t.nackUsed < t.req.nackRetries.toNat → exec (.masterAddressByte p ack) s = .next
            ((sent b (fun c => { c with addrNacks := c.addrNacks + 1 })
              { E₁ with phase := .closing, outcome := some .retry }).setSlot k
              (.txn { t with nackUsed := t.nackUsed + 1 }))) ∧
          (t.req.nackRetries.toNat ≤ t.nackUsed → exec (.masterAddressByte p ack) s = .next
            (sent b (fun c => { c with addrNacks := c.addrNacks + 1 })
              { E₁ with phase := .closing, outcome := some (.result .addrNack 0) })))) ∧
      (E.phase = .sending → E.bytePos < g.length.toNat →
        let b := byteAt (s.port p).outbound (outboundStart t.req E.segment + E.bytePos)
        let E₁ := { E with crc := check b, bytePos := E.bytePos + 1 }
        (ack = true →
          exec (.masterDataByteSent p ack) s = .next (sent b id
            (if E.bytePos + 1 < g.length.toNat then { E₁ with writeCount := E.writeCount + 1 }
              else ended { E₁ with writeCount := E.writeCount + 1 }))) ∧
        (ack = false → g.ignoreNack = true →
          exec (.masterDataByteSent p ack) s = .next
            (sent b (fun c => { c with dataNacks := c.dataNacks + 1 })
              (if E.bytePos + 1 < g.length.toNat then E₁ else ended E₁))) ∧
        (ack = false → g.ignoreNack = false →
          exec (.masterDataByteSent p ack) s = .next
            (sent b (fun c => { c with dataNacks := c.dataNacks + 1 })
              { E with
                crc := check b, phase := .closing, outcome := some (.result .dataNack 0) })))) ∧
    (E.quiet = true ∨ E.stopReq ≠ none ∧ E.outcome ≠ none →
      (E.phase = .addressing →
        let b : Byte := g.addr ++ (if g.kind = .write then 0#1 else 1#1)
        let E₁ := { E with crc := check b }
        exec (.masterAddressByte p true) s = .next
          (sent b id { E₁ with phase := if g.kind = .write then .closing else .receiving }) ∧
        exec (.masterAddressByte p false) s = .next
          (sent b (fun c => { c with addrNacks := c.addrNacks + 1 }) { E₁ with phase := .closing })) ∧
      (E.phase = .sending → E.bytePos < g.length.toNat →
        let b := byteAt (s.port p).outbound (outboundStart t.req E.segment + E.bytePos)
        let E₁ := { E with crc := check b, phase := .closing }
        exec (.masterDataByteSent p true) s = .next
          (sent b id { E₁ with writeCount := E.writeCount + 1, bytePos := E.bytePos + 1 }) ∧
        exec (.masterDataByteSent p false) s = .next
          (sent b (fun c => { c with dataNacks := c.dataNacks + 1 }) E₁)))

/-- What the engine receives (R14, R16, R17, R18, R74 to R76, R83). A data byte enters inbound staging
with its segment and is counted; it is acknowledged but for the segment's last, and the last too when
the check byte follows. A count byte above the segment's capacity is refused and decides OVERLENGTH;
another says how many bytes follow, 0 ending the segment. The check byte of a last WRITE decides OK or
DATA_NACK by its acknowledge, that of a last read is compared with the running value, refused, and
decides OK or CHECK_FAIL; it is neither counted nor stored. After a stop request with its result
decided, or with the engine quiet from a halt or a controller stop (R85), a data byte or a count byte is
refused, whatever it says, counted and stored, and the attempt goes to its STOP; a check byte decides
nothing (R82, R83). -/
def Obligations.BytesAreReceived : Prop :=
  ∀ (s : State) (p : PortId) (k : SlotId) (t : Txn) (b : Byte), Awake s →
    (s.port p).inService = some k → s.txn k = some t →
    let E := (s.port p).eng
    let g := t.req.seg E.segment
    let last : Bool := t.req.chk && decide (E.segment + 1 = t.req.nseg.toNat)
    let ended : Engine → Engine := fun E =>
      if last then { E with phase := .checking }
      else if g.join then { E with phase := .opening, restart := true }
      else { E with phase := .closing }
    let received (ack : Bool) (E' : Engine) : State := s.modPort p fun P => { P with
      inbound := P.inbound ++ [(E.segment, b)], lastAck := some ack, sclDriven := true,
      sdaDriven := false, idleFrom := s.timebase, clockLowFrom := s.timebase,
      stuckDataFrom := s.timebase, eng := E' }
    let E₁ : Engine := { E with
      crc := if t.req.chk then crcByte E.crc b else E.crc, readCount := E.readCount + 1,
      bytePos := E.bytePos + 1 }
    let total : Nat := match E.countRecv with | some n => 1 + n.toNat | none => g.length.toNat
    (E.stopReq = none → E.quiet = false → E.outcome = none →
      (E.phase = .receiving → (g.kind ≠ .readCounted ∨ E.countRecv ≠ none) →
        (E.bytePos + 1 < total →
          exec (.masterByteReceived p b) s = .next (received true E₁)) ∧
        (total ≤ E.bytePos + 1 →
          exec (.masterByteReceived p b) s = .next (received last (ended E₁)))) ∧
      (E.phase = .receiving → g.kind = .readCounted → E.countRecv = none →
        let E₂ : Engine := { E₁ with countRecv := some b }
        (g.length.toNat - 1 < b.toNat → exec (.countByte p b) s = .next
          (received false { E₂ with phase := .closing, outcome := some (.result .overlength 0) })) ∧
        (b.toNat ≤ g.length.toNat - 1 → b ≠ 0 →
          exec (.countByte p b) s = .next (received true E₂)) ∧
        (b = 0 → exec (.countByte p b) s = .next (received last (ended E₂)))) ∧
      (E.phase = .checking → ∀ ack : Bool,
        (g.kind = .write → ∃ u, exec (.checkByte p ack b) s = .next u ∧
          (u.port p).eng = { E with
            phase := .closing, outcome := some (.result (if ack then .ok else .dataNack) 0) } ∧
          (u.port p).lastSent = some E.crc ∧ (u.port p).inbound = (s.port p).inbound ∧
          (u.port p).stats.dataNacks = (s.port p).stats.dataNacks + (if ack then 0 else 1) ∧
          u = { s with ports := u.ports } ∧ ∀ r, r ≠ p → u.port r = s.port r) ∧
        (g.kind ≠ .write → ∃ u, exec (.checkByte p ack b) s = .next u ∧
          (u.port p).eng = { E with
            phase := .closing,
            outcome := some (.result (if b = E.crc then .ok else .checkFail) 0) } ∧
          (u.port p).lastAck = some false ∧ (u.port p).inbound = (s.port p).inbound ∧
          (u.port p).stats = (s.port p).stats ∧
          u = { s with ports := u.ports } ∧ ∀ r, r ≠ p → u.port r = s.port r))) ∧
    (E.quiet = true ∨ E.stopReq ≠ none ∧ E.outcome ≠ none →
      (E.phase = .receiving → g.kind ≠ .readCounted ∨ E.countRecv ≠ none →
        exec (.masterByteReceived p b) s = .next (received false { E₁ with phase := .closing })) ∧
      (E.phase = .receiving → g.kind = .readCounted → E.countRecv = none →
        exec (.countByte p b) s = .next
          (received false { E₁ with countRecv := some b, phase := .closing })) ∧
      (E.phase = .checking → ∀ ack : Bool, ∃ u, exec (.checkByte p ack b) s = .next u ∧
        (u.port p).eng = { E with phase := .closing } ∧
        (u.port p).inbound = (s.port p).inbound ∧
        (g.kind = .write → (u.port p).lastSent = some E.crc ∧ (u.port p).stats.dataNacks =
          (s.port p).stats.dataNacks + (if ack then 0 else 1)) ∧
        (g.kind ≠ .write → (u.port p).lastAck = some false ∧ (u.port p).stats = (s.port p).stats) ∧
        u = { s with ports := u.ports } ∧ ∀ r, r ≠ p → u.port r = s.port r))

/-- The end of a segment and of an attempt (R12, R51, R52, R69, R77 to R81). A STOP complete leaves the
port IDLE with the monitor FREE and both lines released; with an outcome the attempt ends with it, with
none it ends OK after the last segment and otherwise waits in BETWEEN. A retry goes to READY, or to
RETRY_WAIT with the gap running; with the deadline expired since the decision the transaction ends
DEADLINE there (log entry 45). A loss releases both lines, counts it, leaves the verdict as the lines
made it (R88), the port OBSERVING and the attempt ended: a retry uses one arbitration retry while one
remains, otherwise the result is ARB_LOST with the place of the loss. A loss with an outcome decided
keeps that outcome (R79): at the STOP, also one that follows a stop request at once from SENDING (R82,
R83), and in the refusal of an OVERLENGTH count byte, which is then not counted (R78, log entry 24).
After a loss at ADDRESS the winner's byte is judged as the address byte of an outside transfer, on a
port in step as ADDRESS_BYTE judges it (R78, R148). With SUPPRESS an OK result completes the transaction
without a record (R22, R54). An attempt of a request that read bytes goes to DRAINING instead, with its
result and counts (`Drains`: R51, R53): the one write stores, for each segment that received any and in
segment order, its received bytes at its own range (R8, R15, log entry 44). An engine that a halt or a
controller stop has made quiet ends its attempt without a result, the transaction READY and in service
(R85). A timeout whose timer has reached its limit when the attempt's end sets it back stays to be taken
at that moment (R96, `tied`: log entry 57). The port is not told to disable and no disable is pending
here. -/
def Obligations.AttemptsEnd : Prop :=
  ∀ (s : State) (p : PortId) (k : SlotId) (t : Txn), Awake s →
    (s.port p).inService = some k → s.txn k = some t →
    (s.port p).tgt.disableTold = false → (s.port p).disablePending = false →
    let E := (s.port p).eng
    let mayStop : Prop := E.phase = .closing ∨ (E.stopReq ≠ none ∨ E.quiet = true) ∧
      (E.phase = .sending ∨ E.phase = .checking ∧ (t.req.seg E.segment).kind = .write)
    let done (r : Result) (d : Byte) (count : Nat) : Txn := { t with
      state := .posting, started := some (t.started.getD s.timebase), result := r, detail := d,
      segIndex := E.segment, writeCount := E.writeCount, readCount := count, endTime := s.timebase }
    let lost (u : State) : Prop :=
      (u.port p).state = .observing ∧ (u.port p).busFree = (s.port p).busFree ∧
      (u.port p).sclDriven = false ∧ (u.port p).sdaDriven = false ∧
      (u.port p).eng = Engine.reset ∧ (u.port p).tied = (s.port p).tied ++ s.timeoutsReached p ∧
      (u.port p).stats.arbLosses = (s.port p).stats.arbLosses + 1
    (E.quiet = false → mayStop →
      (E.outcome = none → E.segment + 1 ≠ t.req.nseg.toNat →
        ∃ u, exec (.masterStopComplete p) s = .next u ∧
          (u.port p).eng = { E with phase := .between, closedAt := s.timebase } ∧
          (u.port p).state = .idle ∧ (u.port p).busFree = true ∧ (u.port p).inStep = true ∧
          (u.port p).tied = (s.port p).tied ++ s.timeoutsReached p ∧
          (u.port p).sclDriven = false ∧ (u.port p).sdaDriven = false ∧ u.slots = s.slots) ∧
      (∀ r d, (E.outcome = some (.result r d) ∨
          E.outcome = none ∧ E.segment + 1 = t.req.nseg.toNat ∧ r = .ok ∧ d = 0) →
        let ended (u : State) : Prop :=
          (u.port p).state = .idle ∧ (u.port p).busFree = true ∧
          (u.port p).eng = Engine.reset ∧ (u.port p).sclDriven = false ∧
          (u.port p).sdaDriven = false ∧ (u.port p).tied = (s.port p).tied ++ s.timeoutsReached p
        (E.readCount = 0 → CanPost s p t → (r ≠ .ok ∨ t.req.suppress = false) →
          ∃ u, exec (.masterStopComplete p) s = .next u ∧
            RecordPosted s u p k (done r d 0) ∧ ended u) ∧
        (∀ q, E.readCount ≠ 0 → t.origin = .rq q → ∃ u, exec (.masterStopComplete p) s = .next u ∧
          Drains s u p k (done r d E.readCount) (s.port p).inbound ∧ ended u)) ∧
      (∀ q, (E.outcome = some (.result .ok 0) ∨
          E.outcome = none ∧ E.segment + 1 = t.req.nseg.toNat) → E.readCount = 0 →
        t.req.suppress = true → t.origin = .rq q → (∀ x, (s.rq x).hold = none) →
        (s.rq q).state ≠ .deleting →
        ∃ u, exec (.masterStopComplete p) s = .next u ∧ Suppressed s u p k q ∧
          (u.port p).state = .idle ∧ (u.port p).eng = Engine.reset) ∧
      (E.outcome = some .retry → ∃ u, exec (.masterStopComplete p) s = .next u ∧
        u.txn k = some { t with
          started := some (t.started.getD s.timebase), gapFrom := s.timebase,
          state := if t.req.retryGap = 0 then .ready else .retryWait } ∧
        (u.port p).state = .idle ∧ (u.port p).eng = Engine.reset ∧
        (u.port p).tied = (s.port p).tied ++ s.timeoutsReached p ∧ (u.port p).inbound = []) ∧
      (E.outcome = some .retryExpired → CanPost s p t →
        ∃ u, exec (.masterStopComplete p) s = .next u ∧
          RecordPosted s u p k { t with
            state := .posting, started := some (t.started.getD s.timebase), gapFrom := s.timebase,
            result := .deadline, detail := 0, segIndex := 0, writeCount := 0, readCount := 0,
            endTime := s.timebase } ∧
          (u.port p).state = .idle ∧ (u.port p).eng = Engine.reset)) ∧
    (∀ winner place r d, E.quiet = false → E.outcome = some (.result r d) →
      (place = .stop ∧ mayStop ∨
        (E.phase, place) ∈ [(Phase.sending, LossPlace.data), (.receiving, .data), (.checking, .data)] ∨
        (E.phase = .addressing ∧ place = .address ∧ (s.port p).inStep = false) ∨
        (E.phase = .closing ∧ place = .data ∧ (t.req.seg E.segment).kind ≠ .write ∧
          (r = .overlength ∨ r = .ok ∨ r = .checkFail))) →
      let dropped : Bool := place = .data && r = .overlength
      let count : Nat := if dropped then E.readCount - 1 else E.readCount
      (count = 0 → CanPost s p t → (r ≠ .ok ∨ t.req.suppress = false) →
        ∃ u, exec (.arbitrationLoss p place winner) s = .next u ∧
          RecordPosted s u p k (done r d 0) ∧ lost u) ∧
      ∀ q, count ≠ 0 → t.origin = .rq q →
        ∃ u, exec (.arbitrationLoss p place winner) s = .next u ∧
          Drains s u p k (done r d count)
            (if dropped then (s.port p).inbound.dropLast else (s.port p).inbound) ∧ lost u) ∧
    (∀ place winner, E.quiet = false →
      (E.phase, place) ∈ [(Phase.sending, LossPlace.data), (.receiving, .data),
        (.checking, .data), (.closing, .stop), (.addressing, .address)] → E.outcome = none →
      (s.port p).inStep = false ∨ place ≠ .address →
      (t.arbUsed < t.req.arbRetries.toNat →
        ∃ u, exec (.arbitrationLoss p place winner) s = .next u ∧
          u.txn k = some { t with
            arbUsed := t.arbUsed + 1, started := some (t.started.getD s.timebase),
            gapFrom := s.timebase,
            state := if t.req.retryGap = 0 then .ready else .retryWait } ∧ lost u) ∧
      (t.req.arbRetries.toNat ≤ t.arbUsed →
        (E.readCount = 0 → CanPost s p t →
          ∃ u, exec (.arbitrationLoss p place winner) s = .next u ∧
            RecordPosted s u p k (done .arbLost (lossDetail place) 0) ∧ lost u) ∧
        ∀ q, E.readCount ≠ 0 → t.origin = .rq q →
          ∃ u, exec (.arbitrationLoss p place winner) s = .next u ∧
            Drains s u p k (done .arbLost (lossDetail place) E.readCount) (s.port p).inbound ∧
            lost u)) ∧
    (∀ winner, Running s → E.quiet = false → E.phase = .addressing → E.outcome = none →
      (t.arbUsed < t.req.arbRetries.toNat →
        exec (.arbitrationLoss p .address winner) s = exec (.addressByte p winner)
          ((s.modPort p fun P => { P with
            state := .observing, awaitAddr := true, sclDriven := false, sdaDriven := false,
            inbound := [], eng := Engine.reset, idleFrom := s.timebase,
            clockLowFrom := s.timebase, stuckDataFrom := s.timebase,
            tied := P.tied ++ s.timeoutsReached p,
            stats := { P.stats with arbLosses := P.stats.arbLosses + 1 } }).setSlot k
            (.txn { t with
              arbUsed := t.arbUsed + 1, started := some (t.started.getD s.timebase),
              gapFrom := s.timebase,
              state := if t.req.retryGap = 0 then .ready else .retryWait }))) ∧
      (t.req.arbRetries.toNat ≤ t.arbUsed →
        let judgedFrom (v : State) : Prop :=
          (v.port p).state = .observing ∧ (v.port p).awaitAddr = true ∧
          (v.port p).inStep = (s.port p).inStep ∧ (v.port p).tgt = (s.port p).tgt ∧
          (v.port p).eng = Engine.reset ∧ (v.port p).tied = (s.port p).tied ++ s.timeoutsReached p ∧
          (v.port p).stats.arbLosses = (s.port p).stats.arbLosses + 1 ∧
          exec (.arbitrationLoss p .address winner) s = exec (.addressByte p winner) v
        (E.readCount = 0 → CanPost s p t → ∃ v,
          RecordPosted s v p k (done .arbLost (lossDetail .address) 0) ∧ judgedFrom v) ∧
        ∀ q, E.readCount ≠ 0 → t.origin = .rq q → ∃ v,
          Drains s v p k (done .arbLost (lossDetail .address) E.readCount) (s.port p).inbound ∧
          judgedFrom v)) ∧
    (E.quiet = true →
      let dropped (u : State) : Prop :=
        u.txn k = some { t with state := .ready } ∧ (u.port p).eng = Engine.reset ∧
        (u.port p).sclDriven = false ∧ (u.port p).sdaDriven = false ∧
        (u.port p).inService = some k ∧ (u.port p).list = (s.port p).list ∧ u.comp = s.comp ∧
        u.accesses = s.accesses
      (mayStop → ∃ u, exec (.masterStopComplete p) s = .next u ∧ dropped u ∧
        (u.port p).state = .idle) ∧
      ∀ place winner, (E.phase, place) ∈ [(Phase.sending, LossPlace.data), (.receiving, .data),
          (.checking, .data), (.closing, .stop), (.addressing, .address)] →
        s.link.ctrl ≠ .running →
        ∃ u, exec (.arbitrationLoss p place winner) s = .next u ∧ dropped u ∧ lost u) ∧
    ∀ inbound : List (Nat × Byte), ∃ segments : List Nat, segments.Pairwise (· < ·) ∧
      let received (i : Nat) : List Byte := (inbound.filter fun x => x.1 = i).map Prod.snd
      (∀ i, i ∈ segments ↔ i < t.req.segs.length ∧ received i ≠ []) ∧
      drainParts t.req inbound = segments.map fun i =>
        (t.req.buffer + (t.req.seg i).offset.setWidth 64, received i)

/-! ### Completion queues (chapter 6) -/

/-- The completion writer (R111, R114, R115). Idle, it selects the oldest record of the holding list
whose queue is RUNNING and has free space, takes it out and writes it to the queue's slot; the place
freed in a full list goes to the block that waits next in turn. The record written, the slot it kept is
released, with its queue's open count for a request (R36), the produced count rises and the status word
is written. The transaction its queue holds is placed then when no earlier one of the queue is open, or
it has no FENCE, and its port's list has room, and stays held otherwise (R37, R38). A failed record
write takes the queue to ERROR with HOST_FAULT. -/
def Obligations.RecordsAreWritten : Prop :=
  ∀ s : State,
    (Live s →
      (s.comp.writer ≠ .idle ∨ (∀ e ∈ s.comp.holding, (s.cq e.cq).state ≠ .running ∨
          (s.cq e.cq).size.toNat ≤ ((s.cq e.cq).produced - (s.cq e.cq).consumed).toNat) →
        exec .recordSelection s = .next s) ∧
      ∀ (pre post : List HoldEntry) (e : HoldEntry), s.comp.writer = .idle →
        s.comp.holding = pre ++ e :: post →
        (∀ d ∈ pre, (s.cq d.cq).state ≠ .running ∨
          (s.cq d.cq).size.toNat ≤ ((s.cq d.cq).produced - (s.cq d.cq).consumed).toNat) →
        (s.cq e.cq).state = .running →
        ((s.cq e.cq).produced - (s.cq e.cq).consumed).toNat < (s.cq e.cq).size.toNat →
        ((∀ b, s.offerOf b = none) → exec .recordSelection s = .next
          ({ s with comp := { s.comp with holding := pre ++ post, writer := .record e } }.issued
            .cqRecord (.write [((s.cq e.cq).base +
              BitVec.ofNat 64 (32 * ((s.cq e.cq).produced.toNat % (s.cq e.cq).size.toNat)),
              e.record)]) false)) ∧
        ∀ (b : OfferBlock) (before behind : List OfferBlock), s.comp.holding.length = 32 →
          blocksAfter s.comp.lastAdmitted = before ++ b :: behind →
          (∀ c ∈ before, s.offerOf c = none) →
          (∃ n, s.offerOf b = some n ∧ (s.cq n).state = .running) →
          ∃ u, exec .recordSelection s = .next u ∧ u.comp.writer = .record e ∧
            u.comp.lastAdmitted = b ∧
            ∃ r, u.comp.holding = pre ++ post ++ [r] ∧ s.offerOf b = some r.cq) ∧
    ∀ (e : HoldEntry) (a : Access) (rest : List Access), Awake s → s.link.ctrl ≠ .stopping →
      s.comp.writer = .record e → InFlight (· == .cqRecord) 0 s a rest →
      (∀ u : State, EndsAs a true 0 →
        (e.slot = none ∧ u = s.inFlight rest ∨
          (∃ k t w, e.slot = some k ∧ s.txn k = some t ∧ t.origin = .trigger w ∧
            u = (s.inFlight rest).setSlot k .free) ∨
          ∃ k t q, e.slot = some k ∧ s.txn k = some t ∧ t.origin = .rq q ∧ (s.rq q).hold = none ∧
            (s.rq q).state ≠ .deleting ∧
            u = ((s.inFlight rest).setSlot k .free).modRq q fun c =>
              { c with openCount := c.openCount - 1 }) →
        exec (.recordWriteEnd true) s = .next
          (({ u with comp := { s.comp with writer := .status e.cq e.notify } }.modCq e.cq fun c =>
            { c with produced := c.produced + 1 }).issued (.cqStatus e.cq .record)
            (.write [(s.statusSlot (10 + e.cq.val), statusWord ((s.cq e.cq).produced + 1)
              (s.cq e.cq).state.code (s.cq e.cq).reason.code s.timebase)]) false)) ∧
      (∀ (k j : SlotId) (t v : Txn) (q : RqId), EndsAs a true 0 → e.slot = some k →
        s.txn k = some t → t.origin = .rq q → (s.rq q).state ≠ .deleting →
        (s.rq q).hold = some j → j ≠ k → s.txn j = some v → v.req.urgent = false →
        ∃ u, exec (.recordWriteEnd true) s = .next u ∧ u.slots.get k = .free ∧
          (v.req.fence = false ∨ (s.rq q).openCount ≤ 2 → (s.port v.port).list.length < 32 →
            u.txn j = some { v with state := .waiting } ∧
            (u.port v.port).list = (s.port v.port).list ++ [j] ∧
            u.rq q = { s.rq q with openCount := (s.rq q).openCount - 1, hold := none } ∧
            u.fetch.placed.get v.port = q) ∧
          (v.req.fence = true ∧ 3 ≤ (s.rq q).openCount ∨ 32 ≤ (s.port v.port).list.length →
            u.txn j = some v ∧ u.ports = s.ports ∧ u.fetch = s.fetch ∧
            u.rq q = { s.rq q with openCount := (s.rq q).openCount - 1 })) ∧
      ((s.cq e.cq).state = .running → ∃ u, exec (.recordWriteEnd false) s = .next u ∧
        (u.cq e.cq).state = .error ∧ (u.cq e.cq).reason = .hostFault ∧
        (u.cq e.cq).produced = (s.cq e.cq).produced ∧ u.comp.writer = .idle ∧
        (∃ x ∈ u.mgmt.latches, x.latch = .cqError e.cq) ∧ ∀ h ∈ u.comp.holding, h.cq ≠ e.cq)

/-- Announcement and coalescing (R114, R115, R117, R118). The status word of a record written, the
record is announced: with NOTIFY set, K records unannounced or L 0 the queue's ISR bit is set, its
unannounced count is 0 and its timer stops; otherwise the count rises, and the first record starts the
timer. The timer at L does the same, and before L nothing happens. A failed status word write takes a
RUNNING queue to ERROR with HOST_FAULT, and one status word is written for that change; when that write
fails nothing follows, whatever the state is by then (log entry 56: the model's reading). -/
def Obligations.RecordsAreAnnounced : Prop :=
  ∀ (s : State) (n : CqId), Awake s →
    let raised (u : State) : Prop :=
      u.ints.isr = s.ints.isr ||| BitVec.twoPow 8 (1 + n.val) ∧ u.ints.imr = s.ints.imr
    let failed (u : State) : Prop :=
      (u.cq n).state = .error ∧ (u.cq n).reason = .hostFault ∧
      (∃ x ∈ u.mgmt.latches, x.latch = .cqError n) ∧
      ⟨.cqStatus n .change, .write [(s.statusSlot (10 + n.val),
        statusWord (s.cq n).produced 2 2 s.timebase)], s.timebase, false, !s.link.busMaster, true⟩ ∈
        u.accesses
    (∀ (a : Access) (rest : List Access) (k : Nat) (m : CqId) (notify : Bool),
      s.link.ctrl ≠ .stopping →
      InFlight (fun x => match x with | .cqStatus i _ => i == n | _ => false) k s a rest →
      (a.kind = .cqStatus n .change →
        (EndsAs a true 0 → exec (.cqStatusWordWriteEnd n k true) s = .next (s.inFlight rest)) ∧
        ((s.cq n).state ≠ .running ∨ a.further = true →
          exec (.cqStatusWordWriteEnd n k false) s = .next (s.inFlight rest)) ∧
        ((s.cq n).state = .running → a.further = false → s.comp.writer.writes n = false →
          ∃ u, exec (.cqStatusWordWriteEnd n k false) s = .next u ∧ failed u)) ∧
      (a.kind = .cqStatus n .record → s.comp.writer = .status m notify →
        let idle : State := { s.inFlight rest with comp := { s.comp with writer := .idle } }
        (EndsAs a true 0 →
          (notify = true ∨ (s.cq n).k.toNat ≤ (s.cq n).unannounced + 1 ∨ (s.cq n).l = 0 →
            ∃ u, exec (.cqStatusWordWriteEnd n k true) s = .next u ∧ raised u ∧
              u = { idle.modCq n fun c => { c with unannounced := 0, timer := none } with
                ints := u.ints }) ∧
          (notify = false → (s.cq n).unannounced + 1 < (s.cq n).k.toNat → (s.cq n).l ≠ 0 →
            exec (.cqStatusWordWriteEnd n k true) s = .next (idle.modCq n fun c =>
              { c with
                unannounced := c.unannounced + 1,
                timer := if c.unannounced = 0 then some s.timebase else c.timer }))) ∧
        ((s.cq n).state = .running → ∃ u, exec (.cqStatusWordWriteEnd n k false) s = .next u ∧
          failed u ∧ u.comp.writer = .idle))) ∧
    (Live s →
      ((s.cq n).timer = none ∨
          (∃ t, (s.cq n).timer = some t ∧ (s.timebase - t).toNat < (s.cq n).l.toNat) →
        exec (.coalescingTimerExpiry n) s = .next s) ∧
      ∀ t, (s.cq n).timer = some t → (s.cq n).l.toNat ≤ (s.timebase - t).toNat →
        ∃ u, exec (.coalescingTimerExpiry n) s = .next u ∧ raised u ∧
          u = { s.modCq n fun c => { c with unannounced := 0, timer := none } with
            ints := u.ints })

/-! ### Bus supervision (chapter 5) -/

/-- The bus monitor (R68, R78, R88, R89, R91, R98). A START of another device makes the verdict BUSY and
sets the port's timers back: a port IDLE or OBSERVING observes the transfer, an engine opening a segment
has lost, and so has one within a byte it receives (R71), and the final wait of a recovery ends in
OBSERVING out of step. A STOP, or both lines high for the idle time, makes the verdict FREE: a port
OBSERVING enters IDLE in step; an engine has lost by a STOP within a byte it receives. Before the idle
time, and on a port that is OFF, nothing happens (log entry 7: the model's choice). The port is not told
to disable here. With its arbitration retries used up a lost attempt ends ARB_LOST with the place of the
loss, its record made or, when it read bytes, DRAINING first (R51, R80). That a lost engine's port
awaits the winner's address byte after a START, and that another device's START in OPENING or in a
received byte comes as this event, is the model's reading (log entry 20). -/
def Obligations.MonitorFollowsTheBus : Prop :=
  ∀ (s : State) (p : PortId), Awake s → (s.port p).tgt.disableTold = false →
    let free : Port → Port := fun P => { P with
      state := .idle, inStep := true, busFree := true, awaitAddr := false, reason := none,
      enabling := false, clockLowFrom := s.timebase, stuckDataFrom := s.timebase,
      tgt := { P.tgt with transfer := .none } }
    let touched : Port → Port := fun P => { P with
      idleFrom := s.timebase, clockLowFrom := s.timebase, stuckDataFrom := s.timebase }
    ((s.port p).state = .off → exec (.busStartSeen p) s = .next s ∧
      exec (.busStopSeen p) s = .next s ∧ exec (.idleTimeExpiry p) s = .next s) ∧
    (Running s → (s.port p).state = .idle ∨ (s.port p).state = .observing →
      exec (.busStartSeen p) s = .next (s.modPort p fun P => { touched P with
        busFree := false, state := .observing, awaitAddr := true,
        tgt := { P.tgt with transfer := .none } })) ∧
    (∀ k t, (s.port p).state = .master → (s.port p).eng.phase = .opening →
      (s.port p).eng.outcome = none → (s.port p).eng.quiet = false →
      (s.port p).inService = some k → s.txn k = some t → (s.port p).disablePending = false →
      t.arbUsed < t.req.arbRetries.toNat → ∃ u, exec (.busStartSeen p) s = .next u ∧
        u.txn k = some { t with
          arbUsed := t.arbUsed + 1, started := some (t.started.getD s.timebase),
          gapFrom := s.timebase, state := if t.req.retryGap = 0 then .ready else .retryWait } ∧
        (u.port p).state = .observing ∧ (u.port p).busFree = false ∧
        (u.port p).awaitAddr = true ∧ (u.port p).eng = Engine.reset ∧
        (u.port p).stats = { (s.port p).stats with
          arbLosses := (s.port p).stats.arbLosses + 1 }) ∧
    (∀ k t, (s.port p).state = .master → (s.port p).inService = some k → s.txn k = some t →
      ((s.port p).eng.phase = .receiving ∨ (s.port p).eng.phase = .checking ∧
        (t.req.seg (s.port p).eng.segment).kind ≠ .write) →
      (s.port p).eng.outcome = none → (s.port p).eng.quiet = false →
      (s.port p).disablePending = false → t.arbUsed < t.req.arbRetries.toNat →
      let lost (u : State) (free : Bool) : Prop :=
        u.txn k = some { t with
          arbUsed := t.arbUsed + 1, started := some (t.started.getD s.timebase),
          gapFrom := s.timebase, state := if t.req.retryGap = 0 then .ready else .retryWait } ∧
        (u.port p).busFree = free ∧ (u.port p).awaitAddr = !free ∧
        (u.port p).eng = Engine.reset ∧ (u.port p).sclDriven = false ∧
        (u.port p).sdaDriven = false ∧ (u.port p).stats = { (s.port p).stats with
          arbLosses := (s.port p).stats.arbLosses + 1 }
      (∃ u, exec (.busStartSeen p) s = .next u ∧ lost u false ∧ (u.port p).state = .observing) ∧
      (Running s → (s.port p).enabling = false → s.commandAt (.port p .enable) = false →
        ∃ u, exec (.busStopSeen p) s = .next u ∧ lost u true ∧ (u.port p).state = .idle)) ∧
    (∀ k t place, (s.port p).state = .master → (s.port p).inService = some k → s.txn k = some t →
      (s.port p).eng.outcome = none → (s.port p).eng.quiet = false →
      (s.port p).disablePending = false → t.req.arbRetries.toNat ≤ t.arbUsed →
      let E := (s.port p).eng
      let restarts : Bool := E.phase = .opening && E.restart
      let done : Txn := { t with
        state := .posting, started := some (t.started.getD s.timebase), result := .arbLost,
        detail := lossDetail place,
        segIndex := if restarts then E.segment + 1 else E.segment, writeCount := E.writeCount,
        readCount := E.readCount, endTime := s.timebase }
      let lost (c : Instr) (free : Bool) (state : PortState) : Prop :=
        let ends (u : State) : Prop :=
          (u.port p).state = state ∧ (u.port p).busFree = free ∧ (u.port p).awaitAddr = !free ∧
          (u.port p).eng = Engine.reset ∧ (u.port p).sclDriven = false ∧
          (u.port p).sdaDriven = false ∧ (u.port p).tied = (s.port p).tied ++ s.timeoutsReached p ∧
          (u.port p).stats.arbLosses = (s.port p).stats.arbLosses + 1
        (E.readCount = 0 → CanPost s p t →
          ∃ u, exec c s = .next u ∧ RecordPosted s u p k done ∧ ends u) ∧
        ∀ q, E.readCount ≠ 0 → t.origin = .rq q →
          ∃ u, exec c s = .next u ∧ Drains s u p k done (s.port p).inbound ∧ ends u
      (E.phase = .opening → place = (if restarts then .restart else .start) →
        lost (.busStartSeen p) false .observing) ∧
      (E.phase = .receiving ∨ E.phase = .checking ∧ (t.req.seg E.segment).kind ≠ .write →
        place = .data → lost (.busStartSeen p) false .observing ∧
          (Running s → (s.port p).enabling = false → s.commandAt (.port p .enable) = false →
            lost (.busStopSeen p) true .idle))) ∧
    (∀ t, Running s → (s.port p).state = .recovering → (s.port p).recovery = .finalWait t →
      ∃ u, exec (.busStartSeen p) s = .next u ∧
        u.port p = { touched (s.port p) with
          state := .observing, recovery := .none, inStep := false, busFree := false,
          awaitAddr := true, reason := none, sclDriven := false, sdaDriven := false,
          stats := { (s.port p).stats with recoveries := (s.port p).stats.recoveries + 1 } } ∧
        ∃ x ∈ u.mgmt.latches, x.latch = .portRecovered p) ∧
    ((s.port p).state ≠ .off →
      ((s.port p).enabling = true → exec (.busStopSeen p) s = .next (s.modPort p touched)) ∧
      ((s.port p).enabling = false →
        (Running s → (s.port p).state = .observing → s.commandAt (.port p .enable) = false →
          exec (.busStopSeen p) s = .next (s.modPort p fun P => free (touched P))) ∧
        ((s.port p).state ≠ .observing →
          ((s.port p).state = .master → (s.port p).eng.phase ≠ .receiving ∧
            (s.port p).eng.phase ≠ .checking) →
          exec (.busStopSeen p) s = .next (s.modPort p fun P => { touched P with
            busFree := true }))) ∧
      ((s.timebase - (s.port p).idleFrom).toNat < (s.port p).cfg.idleTime.toNat * 10 →
        exec (.idleTimeExpiry p) s = .next s) ∧
      ((s.port p).cfg.idleTime.toNat * 10 ≤ (s.timebase - (s.port p).idleFrom).toNat →
        ((s.port p).state ≠ .observing → exec (.idleTimeExpiry p) s =
          .next (s.modPort p fun P => { P with busFree := true })) ∧
        (Running s → (s.port p).state = .observing →
          (s.commandAt (.port p .enable) = false →
            exec (.idleTimeExpiry p) s = .next (s.modPort p free)) ∧
          ∀ e, s.mgmt.command = some { entry := e, phase := .port p .enable } →
            exec (.idleTimeExpiry p) s =
              .next (answered e .success 0 0 (s.modPort p free)))))

/-- The timeouts (R60, R95, R96, R97, R100). An expiry that comes together with the end of an attempt
and is taken after it acts as well, though the timers have been set back: after the STOP has ended the
attempt with its own outcome, it finds the port IDLE and changes neither that transaction nor its
record. It is kept for that moment in `tied`, until time passes (log entry 57: the model's reading).
After the bus timeout, with both timers running, an expiry is counted: with recovery enabled the port is
RECOVERING, out of step with both lines released, and otherwise FAULTED with the line as its reason,
counted and latched; an attempt in progress ends BUS_TIMEOUT, with the segment that a repeated START was
about to open as its last (log entry 22: the model's reading). Without an attempt, the entry to FAULTED
ends a READY or RETRY_WAIT transaction in service BUS_FAULT, makes that the pending result of one in
STAGING that has none, and leaves one in DRAINING or POSTING (`FaultEndsService`: R60). With bus timeout
0, on a port OFF, RECOVERING or FAULTED, and before the time, nothing happens. An attempt of a request
that read bytes goes to DRAINING with that result (`Drains`: R51). In HALTED nothing happens either
(R102), on a port that completes its byte-boundary stop as well: that R102 is followed there over R85 is
the model's choice (log entry 48). In STOPPING such a port is counted, ends its attempt without a result
and releases both lines (R85, R195). While RUNNING, no target transfer is in progress here, and the port
is not told to disable. -/
def Obligations.TimeoutsExpire : Prop :=
  ∀ (s : State) (p : PortId) (c : Instr) (since : Word) (reason : FaultReason) (detail : Byte)
      (count : Stats → Stats),
    (c, since, reason, detail, count) = (.clockLowTimeout p, (s.port p).clockLowFrom,
        FaultReason.clockLow, 1, fun x => { x with clockLow := x.clockLow + 1 }) ∨
      (c, since, reason, detail, count) = (.stuckDataTimeout p, (s.port p).stuckDataFrom,
        FaultReason.dataLow, 2, fun x => { x with stuckData := x.stuckData + 1 }) →
    let passed : Prop := (s.port p).cfg.busTimeout.toNat * 1000 ≤ (s.timebase - since).toNat
    let expires : Prop := passed ∨ reason ∈ (s.port p).tied
    (reason ∈ s.timeoutsReached p ↔ (s.port p).cfg.busTimeout ≠ 0 ∧ passed) ∧
    ((s.port p).cfg.busTimeout = 0 ∨
        (s.port p).state ∈ [.off, .recovering, .faulted] ∨ s.link.ctrl = .halted ∨ ¬ expires →
      exec c s = .next s) ∧
    (Running s → (s.port p).cfg.busTimeout ≠ 0 →
      (s.port p).state ∈ [.idle, .observing, .master, .target] → expires →
      (s.port p).tgt.transfer = .none → (s.port p).tgt.disableTold = false →
      (s.port p).eng.quiet = false →
      ((s.port p).cfg.recovery = true → (s.port p).eng.phase = .none →
        exec c s = .next (s.modPort p fun P => { P with
          state := .recovering, inStep := false, awaitAddr := false,
          recovery := .waitScl s.timebase, sclDriven := false, sdaDriven := false,
          idleFrom := s.timebase, clockLowFrom := s.timebase, stuckDataFrom := s.timebase,
          tied := [], stats := count P.stats })) ∧
      ((s.port p).cfg.recovery = false → (s.port p).eng.phase = .none →
        (s.port p).inService = none →
        ∃ u, exec c s = .next u ∧
          u.port p = { s.port p with
            state := .faulted, inStep := false, awaitAddr := false, enabling := false,
            reason := some reason, recovery := .none, sclDriven := false, sdaDriven := false,
            tied := [], stats := { count (s.port p).stats with faults := (s.port p).stats.faults + 1 } } ∧
          (∃ x ∈ u.mgmt.latches, x.latch = .portFault p) ∧
          (∀ e, s.mgmt.command = some { entry := e, phase := .port p .enable } →
            u.mgmt.command = none ∧ u.mgmt.due =
              some (completionRecord e .stuck (reason.code.setWidth 32) 0 s.timebase)) ∧
          u = { s with ports := u.ports, mgmt := u.mgmt } ∧ ∀ r, r ≠ p → u.port r = s.port r) ∧
      (∀ k t, (s.port p).cfg.recovery = false → (s.port p).eng.phase = .none →
        (s.port p).inService = some k → s.txn k = some t →
        t.state ∈ [TxnState.staging, .ready, .retryWait, .draining, .posting] →
        (t.state = .ready ∨ t.state = .retryWait → CanPost s p t) →
        ∃ u, exec c s = .next u ∧ (u.port p).state = .faulted ∧ (u.port p).reason = some reason ∧
          (u.port p).stats.faults = (s.port p).stats.faults + 1 ∧
          (∃ x ∈ u.mgmt.latches, x.latch = .portFault p) ∧ FaultEndsService reason s u p k t) ∧
      (∀ k t, (s.port p).eng.phase ≠ .none →
        (s.port p).inService = some k → s.txn k = some t → t.state = .active →
        let done : Txn := { t with
          state := .posting, started := some (t.started.getD s.timebase), result := .busTimeout,
          detail := detail,
          segIndex := if (s.port p).eng.phase = .opening ∧ (s.port p).eng.restart = true then
            (s.port p).eng.segment + 1 else (s.port p).eng.segment,
          writeCount := (s.port p).eng.writeCount, readCount := (s.port p).eng.readCount,
          endTime := s.timebase }
        let left (u : State) (completed : Word) : Prop :=
          (u.port p).state = (if (s.port p).cfg.recovery then .recovering else .faulted) ∧
          (u.port p).stats = { count (s.port p).stats with
            completed := (s.port p).stats.completed + completed,
            faults := (s.port p).stats.faults + if (s.port p).cfg.recovery then 0 else 1 } ∧
          (u.port p).eng = Engine.reset ∧ (u.port p).inStep = false ∧ (u.port p).tied = [] ∧
          (u.port p).sclDriven = false ∧ (u.port p).sdaDriven = false
        ((s.port p).eng.readCount = 0 → CanPost s p t →
          ∃ u, exec c s = .next u ∧ RecordPosted s u p k done ∧ left u 1) ∧
        ∀ q, (s.port p).eng.readCount ≠ 0 → t.origin = .rq q →
          ∃ u, exec c s = .next u ∧ Drains s u p k done (s.port p).inbound ∧ left u 0)) ∧
    (∀ k t r d, Running s → (s.port p).cfg.busTimeout ≠ 0 → passed →
      (s.port p).tgt.transfer = .none → (s.port p).tgt.disableTold = false →
      (s.port p).eng.quiet = false → (s.port p).eng.phase = .closing →
      (s.port p).eng.outcome = some (.result r d) → (s.port p).eng.readCount = 0 →
      (s.port p).inService = some k → s.txn k = some t → CanPost s p t →
      (r ≠ .ok ∨ t.req.suppress = false) →
      ∃ u v, exec (.masterStopComplete p) s = .next u ∧ (u.port p).state = .idle ∧
        RecordPosted s u p k { t with
          state := .posting, started := some (t.started.getD s.timebase), result := r, detail := d,
          segIndex := (s.port p).eng.segment, writeCount := (s.port p).eng.writeCount,
          readCount := 0, endTime := s.timebase } ∧
        exec c u = .next v ∧ v.slots = u.slots ∧ v.comp = u.comp ∧
        (v.port p).state = (if (s.port p).cfg.recovery then .recovering else .faulted) ∧
        (v.port p).stats = { count (u.port p).stats with
          faults := (u.port p).stats.faults + if (s.port p).cfg.recovery then 0 else 1 } ∧
        (v.port p).sclDriven = false ∧ (v.port p).sdaDriven = false ∧ (v.port p).tied = []) ∧
    ∀ k t, Awake s → s.link.ctrl = .stopping → (s.port p).eng.quiet = true →
      (s.port p).cfg.busTimeout ≠ 0 →
      (s.port p).state ∈ [.idle, .observing, .master, .target] → expires →
      (s.port p).inService = some k → s.txn k = some t →
      exec c s = .next ((s.modPort p fun P => { P with
        state := .observing, sclDriven := false, sdaDriven := false, eng := Engine.reset,
        tied := [], stats := count P.stats }).setSlot k (.txn { t with state := .ready }))

/-- Recovery and restart (R97 to R101). SCL seen high, SDA high leads to the STOP and SDA low to the
clock pulses; after a pulse SDA high leads to the STOP, SDA low to the next of at most nine, and after
the ninth the recovery fails with SDA_STUCK. The STOP made, both lines must stay high for the idle time:
the recovery has succeeded, counted and latched, and the port is IDLE in step; so is a restart without
recovery, not counted. A 10 ms limit, or SDA that does not rise, fails it with its reason: the port is
FAULTED, counted and latched, with its lines released. RESTART PORT, when it waits, completes with
SUCCESS or STUCK, and so does ENABLE PORT (R93). A START of another device ends either wait in
OBSERVING, out of step: from the final wait the recovery has succeeded, counted and latched, and from
the restart wait RESTART PORT completes (R98, R101). A port told to disable enters OFF in place of
FAULTED or IDLE (`SwitchedOff`: R59, R94), as it does when a START of another device ends its wait, and
DISABLE PORT completes. Out of its wait an event does nothing (log entry 7: the model's choice). A port
FAULTED by its 10 ms limit with a transaction in service treats that as `FaultEndsService` says (R60);
the other outcomes are said with nothing in service. That the 10 ms of a pulse and of the STOP run from
the command that begins them is the model's choice (log entry 13). -/
def Obligations.RecoveryRuns : Prop :=
  (∀ (s : State) (p : PortId), Running s → (s.port p).inService = none →
    let R := (s.port p).recovery
    let told := (s.port p).tgt.disableTold
    let at_ (r : Recovery) (sda : Bool) : State := s.modPort p fun P => { P with
      recovery := r, sclDriven := false, sdaDriven := sda, idleFrom := s.timebase,
      clockLowFrom := s.timebase, stuckDataFrom := s.timebase }
    let completes (u : State) (status : Status) (value : Word) : Prop :=
      (∀ e w, w ≠ .disable → s.mgmt.command = some { entry := e, phase := .port p w } →
        u.mgmt.command = none ∧
        u.mgmt.due = some (completionRecord e status value 0 s.timebase)) ∧
      (told = false → u = { s with ports := u.ports, mgmt := u.mgmt }) ∧
      ∀ r, r ≠ p → u.port r = s.port r
    let fails (c : Instr) (reason : FaultReason) : Prop :=
      let stats : Stats := { (s.port p).stats with faults := (s.port p).stats.faults + 1 }
      ∃ u, exec c s = .next u ∧ (told = false → u.port p = { s.port p with
          state := .faulted, inStep := false, awaitAddr := false, enabling := false,
          reason := some reason, recovery := .none, sclDriven := false, sdaDriven := false,
          stats := stats }) ∧
        (told = true → SwitchedOff s u p ∧ (u.port p).stats = stats) ∧
        (∃ x ∈ u.mgmt.latches, x.latch = .portFault p) ∧
        completes u .stuck (reason.code.setWidth 32)
    let succeeds (c : Instr) (counted : Word) : Prop :=
      let stats : Stats := { (s.port p).stats with
        recoveries := (s.port p).stats.recoveries + counted }
      ∃ u, exec c s = .next u ∧ (told = false → u.port p = { s.port p with
          state := .idle, inStep := true, busFree := true, awaitAddr := false, reason := none,
          enabling := false, recovery := .none, sclDriven := false, sdaDriven := false,
          clockLowFrom := s.timebase, stuckDataFrom := s.timebase, stats := stats }) ∧
        (told = true → SwitchedOff s u p ∧ (u.port p).stats = stats) ∧
        (counted = 1 → ∃ x ∈ u.mgmt.latches, x.latch = .portRecovered p) ∧ completes u .success 0
    (∀ t, R = .waitScl t →
      exec (.recoverySclHigh p true) s = .next (at_ (.stopping s.timebase) true) ∧
      exec (.recoverySclHigh p false) s = .next (s.modPort p fun P => { P with
        recovery := .pulsing 0 s.timebase, idleFrom := s.timebase, clockLowFrom := s.timebase,
        stuckDataFrom := s.timebase })) ∧
    (∀ g t, R = .pulsing g t →
      exec (.recoveryPulse p true) s = .next (at_ (.stopping s.timebase) true) ∧
      (g + 1 < 9 → exec (.recoveryPulse p false) s = .next (s.modPort p fun P => { P with
        recovery := .pulsing (g + 1) s.timebase, idleFrom := s.timebase,
        clockLowFrom := s.timebase, stuckDataFrom := s.timebase })) ∧
      (9 ≤ g + 1 → fails (.recoveryPulse p false) .sdaStuck)) ∧
    (∀ t, R = .stopping t →
      exec (.recoveryStop p true true) s = .next (at_ (.finalWait s.timebase) false) ∧
      fails (.recoveryStop p true false) .sdaStuck ∧
      (10000 ≤ (s.timebase - t).toNat → ∀ b, fails (.recoveryStop p false b) .sclStuck) ∧
      ((s.timebase - t).toNat < 10000 → ∀ b, exec (.recoveryStop p false b) s = .next s)) ∧
    ((s.port p).cfg.idleTime.toNat * 10 ≤ (s.timebase - (s.port p).idleFrom).toNat →
      (∀ t, R = .finalWait t → succeeds (.recoveryFinalWaitEnd p) 1) ∧
      (∀ t, R = .restartWait t → succeeds (.restartIdleWaitEnd p) 0)) ∧
    ((s.timebase - (s.port p).idleFrom).toNat < (s.port p).cfg.idleTime.toNat * 10 →
      exec (.recoveryFinalWaitEnd p) s = .next s ∧ exec (.restartIdleWaitEnd p) s = .next s) ∧
    (∀ high t, (R = .waitScl t ∨ (∃ g, R = .pulsing g t) ∨ R = .stopping t →
        (10000 ≤ (s.timebase - t).toNat → fails (.recoveryLimitExpiry p high) .sclStuck) ∧
        ((s.timebase - t).toNat < 10000 → exec (.recoveryLimitExpiry p high) s = .next s)) ∧
      (R = .finalWait t ∨ R = .restartWait t →
        (10000 ≤ (s.timebase - t).toNat →
          fails (.recoveryLimitExpiry p high) (if high then .sdaStuck else .sclStuck)) ∧
        ((s.timebase - t).toNat < 10000 → exec (.recoveryLimitExpiry p high) s = .next s))) ∧
    (∀ t, told = true → (s.port p).state = .recovering → R = .finalWait t ∨ R = .restartWait t →
      ∃ u, exec (.busStartSeen p) s = .next u ∧ SwitchedOff s u p) ∧
    (∀ (t : Word) (counted : Word), told = false → (s.port p).state = .recovering →
      R = .finalWait t ∧ counted = 1 ∨ R = .restartWait t ∧ counted = 0 →
      ∃ u, exec (.busStartSeen p) s = .next u ∧
        u.port p = { s.port p with
          state := .observing, recovery := .none, inStep := false, busFree := false,
          awaitAddr := true, reason := none, sclDriven := false, sdaDriven := false,
          idleFrom := s.timebase, clockLowFrom := s.timebase, stuckDataFrom := s.timebase,
          stats := { (s.port p).stats with
            recoveries := (s.port p).stats.recoveries + counted } } ∧
        (counted = 1 → ∃ x ∈ u.mgmt.latches, x.latch = .portRecovered p) ∧
        (∀ e, s.mgmt.command = some { entry := e, phase := .port p .restart } →
          u.mgmt.command = none ∧ u.mgmt.due = some (completionRecord e .success 0 0 s.timebase)) ∧
        (s.commandAt (.port p .restart) = false → u.mgmt.command = s.mgmt.command) ∧
        u = { s with ports := u.ports, mgmt := u.mgmt } ∧ ∀ r, r ≠ p → u.port r = s.port r) ∧
    (R = .none → ∀ b d, ∀ c ∈ [Instr.recoverySclHigh p b, .recoveryPulse p b,
      .recoveryStop p b d, .recoveryFinalWaitEnd p, .restartIdleWaitEnd p,
      .recoveryLimitExpiry p b], exec c s = .next s)) ∧
  ∀ (s : State) (p : PortId) (k : SlotId) (x : Txn) (t : Word), Running s →
    (s.port p).inService = some k → s.txn k = some x →
    x.state ∈ [TxnState.staging, .ready, .retryWait, .draining, .posting] →
    (x.state = .ready ∨ x.state = .retryWait → CanPost s p x) →
    (s.port p).tgt.disableTold = false → (s.port p).recovery = .waitScl t →
    10000 ≤ (s.timebase - t).toNat →
    ∃ u, exec (.recoveryLimitExpiry p false) s = .next u ∧ (u.port p).state = .faulted ∧
      (u.port p).reason = some .sclStuck ∧ (∃ y ∈ u.mgmt.latches, y.latch = .portFault p) ∧
      FaultEndsService .sclStuck s u p k x

/-! ### Target operation (chapter 8) -/

/-- Judging an address byte (R89, R146, R147, R153, R155, R156). A port OBSERVING with an address byte
to come takes it; with target enable off, out of step or told to disable it does not judge it. A byte
that matches a slot is acknowledged for an image, counting a read, and for a loaded reply, which is then
READING; an empty or reading reply is refused. A write to a mailbox, or of address 0 to the general
call, starts a message into the buffer at hand with staging FREE; it waits holding SCL while all it
misses is on its way (`MessageComing`: a buffer being fetched, or wanted from a RUNNING ring that offers
one, and staging DRAINING: R155); and otherwise it is refused and counted, for staging in use with a
buffer at hand, and for the missing buffer without one, RING_EMPTY being latched. Otherwise the byte is
left alone. -/
def Obligations.AddressesAreJudged : Prop :=
  ∀ (s : State) (p : PortId) (b : Byte), Running s →
    let T := (s.port p).tgt
    let cfg := (s.port p).cfg
    let seen (f : Port → Port) : State := s.modPort p fun P => f { P with
      awaitAddr := false, idleFrom := s.timebase, clockLowFrom := s.timebase,
      stuckDataFrom := s.timebase }
    ((s.port p).state ≠ .observing ∨ (s.port p).awaitAddr = false →
      exec (.addressByte p b) s = .next s) ∧
    ((s.port p).state = .observing → (s.port p).awaitAddr = true →
      (cfg.targetEnable = false ∨ (s.port p).inStep = false ∨ T.disableTold = true ∨
          matchAddress cfg b = none → exec (.addressByte p b) s = .next (seen id)) ∧
      (cfg.targetEnable = true → (s.port p).inStep = true → T.disableTold = false →
        (∀ o : OwnId, (cfg.slots.get o).role ≠ .off → (cfg.slots.get o).addr = b.extractLsb' 1 7 →
          (∀ i : OwnId, i < o → (cfg.slots.get i).role = .off ∨
            (cfg.slots.get i).addr ≠ b.extractLsb' 1 7) →
          ((cfg.slots.get o).role = .image → b.getLsbD 0 = false →
            exec (.addressByte p b) s = .next (seen fun P => { P with
              state := .target, lastAck := some true,
              tgt := { P.tgt with transfer := .imageWrite o true } })) ∧
          ((cfg.slots.get o).role = .image → b.getLsbD 0 = true →
            exec (.addressByte p b) s = .next (seen fun P => { P with
              state := .target, lastAck := some true,
              stats := { P.stats with imageReads := P.stats.imageReads + 1 },
              tgt := { P.tgt with transfer := .imageRead o false } })) ∧
          ((cfg.slots.get o).role = .mailbox → b.getLsbD 0 = true →
            ((T.replies.get o).state = .loaded → exec (.addressByte p b) s =
              .next (seen fun P => { P with
                state := .target, lastAck := some true,
                tgt := { P.tgt with
                  transfer := .replyRead o 0 false,
                  replies := upd P.tgt.replies o fun r => { r with state := .reading } } })) ∧
            ((T.replies.get o).state ≠ .loaded → exec (.addressByte p b) s =
              .next (seen fun P => { P with
                state := .observing, sclDriven := false, lastAck := some false,
                tgt := { P.tgt with transfer := .refused } })))) ∧
        (∀ (who : Addressed) (addr : BitVec 7),
          (∃ o : OwnId, who = .own o ∧ addr = b.extractLsb' 1 7 ∧
              (cfg.slots.get o).role = .mailbox ∧ (cfg.slots.get o).addr = b.extractLsb' 1 7 ∧
              b.getLsbD 0 = false ∧ ∀ i : OwnId, i < o → (cfg.slots.get i).role = .off ∨
                (cfg.slots.get i).addr ≠ b.extractLsb' 1 7) ∨
            (who = .generalCall ∧ addr = 0 ∧ b = 0 ∧ cfg.generalCall = true ∧
              ∀ i : OwnId, (cfg.slots.get i).role = .off ∨ (cfg.slots.get i).addr ≠ 0) →
          (∀ x, T.atHand = .present x → T.staging = .free →
            exec (.addressByte p b) s = .next (seen fun P => { P with
              state := .target, sclDriven := false, lastAck := some true,
              tgt := { P.tgt with
                transfer := .mailboxWrite, atHand := .wanted,
                staging := .filling
                  { buffer := x, who := who, addr := addr, addrTime := s.timebase,
                    endTime := s.timebase, bytes := [], truncated := false,
                    endedByRestart := false, abandoned := false } } })) ∧
          (MessageComing s p → (T.staging = .free → ∀ x, T.atHand ≠ .present x) →
            exec (.addressByte p b) s = .next (seen fun P => { P with
              state := .target, sclDriven := true,
              tgt := { P.tgt with transfer := .deciding who addr s.timebase } })) ∧
          (∀ x, ¬ MessageComing s p → T.atHand = .present x →
            exec (.addressByte p b) s = .next (seen fun P => { P with
              state := .observing, sclDriven := false, lastAck := some false,
              stats := { P.stats with refusedBusy := P.stats.refusedBusy + 1 },
              tgt := { P.tgt with transfer := .refused } })) ∧
          (¬ MessageComing s p → (∀ x, T.atHand ≠ .present x) →
            ∃ u, exec (.addressByte p b) s = .next u ∧
              u.ports = (seen fun P => { P with
                state := .observing, sclDriven := false, lastAck := some false,
                stats := { P.stats with refusedNoBuffer := P.stats.refusedNoBuffer + 1 },
                tgt := { P.tgt with transfer := .refused } }).ports ∧
              ∃ x ∈ u.mgmt.latches, x.latch = .ringEmpty p))))

/-- The bytes of a transfer (R149 to R151, R153, R156). The first byte written to an image sets its
pointer modulo the image length and is acknowledged, the next are refused; a byte written to a mailbox
is stored and acknowledged while there is room, and otherwise refused, the message being truncated. A
byte read from an image is the one at the pointer, which moves on and wraps; one read from a reply is
its next, or FFh beyond its end. After a byte the master refuses none is sent. Out of its transfer a
byte does nothing: the model's choice (log entry 7). -/
def Obligations.TargetBytesPass : Prop :=
  ∀ (s : State) (p : PortId) (o : OwnId) (b : Byte) (ack : Bool), Running s →
    let T := (s.port p).tgt
    let len := ((s.port p).cfg.slots.get o).imageLen.toNat
    let passed (f : Port → Port) : State := s.modPort p fun P => f { P with
      idleFrom := s.timebase, clockLowFrom := s.timebase, stuckDataFrom := s.timebase }
    (T.transfer = .imageWrite o true → exec (.imageWriteByte p b) s =
      .next (passed fun P => { P with
        lastAck := some true,
        tgt := { P.tgt with
          transfer := .imageWrite o false,
          pointers := upd P.tgt.pointers o fun _ => BitVec.ofNat 8 (b.toNat % len) } })) ∧
    (T.transfer = .imageWrite o false → exec (.imageWriteByte p b) s =
      .next (passed fun P => { P with lastAck := some false })) ∧
    (T.transfer = .imageRead o false → exec (.imageReadByte p ack) s =
      .next (passed fun P => { P with
        lastSent := some (byteAt (T.images.get o) (T.pointers.get o).toNat),
        tgt := { P.tgt with
          transfer := .imageRead o (!ack),
          pointers := upd P.tgt.pointers o fun x =>
            if len ≤ x.toNat + 1 then 0 else x + 1 } })) ∧
    (∀ pos, T.transfer = .replyRead o pos false → exec (.replyReadByte p ack) s =
      .next (passed fun P => { P with
        lastSent := some
          (if pos < (T.replies.get o).bytes.length then byteAt (T.replies.get o).bytes pos
            else 0xFF),
        tgt := { P.tgt with transfer := .replyRead o (pos + 1) (!ack) } })) ∧
    (∀ m, T.transfer = .mailboxWrite → T.staging = .filling m →
      (m.bytes.length < m.buffer.cap.toNat → exec (.mailboxWriteByte p b) s =
        .next (passed fun P => { P with
          lastAck := some true,
          tgt := { P.tgt with staging := .filling { m with bytes := m.bytes ++ [b] } } })) ∧
      (m.buffer.cap.toNat ≤ m.bytes.length → exec (.mailboxWriteByte p b) s =
        .next (passed fun P => { P with
          lastAck := some false,
          tgt := { P.tgt with staging := .filling { m with truncated := true } } }))) ∧
    ((∀ i f, T.transfer ≠ .imageWrite i f) → exec (.imageWriteByte p b) s = .next s) ∧
    ((∀ i, T.transfer ≠ .imageRead i false) → exec (.imageReadByte p ack) s = .next s) ∧
    ((∀ i n, T.transfer ≠ .replyRead i n false) → exec (.replyReadByte p ack) s = .next s) ∧
    (T.transfer ≠ .mailboxWrite → exec (.mailboxWriteByte p b) s = .next s)

/-- The end of a transfer (R149, R152 to R158). A conflict while bytes are sent, and a STOP or START,
end it with both lines released: the port is OBSERVING, IDLE in step or OBSERVING with an address byte
to come. The end of a read applies the update it held and completes its command; a reply read to its end
is EMPTY, counted and latched, and otherwise LOADED again, and then a held reply is LOADED over it
(R154); a message goes to DRAINING, and its bytes are written to its buffer. That write ended, its
RECEIVE record goes to the holding list, staging is FREE and the message is counted; while the list is
full the record waits. Either way a mailbox decision that waits here is taken again (`DecidesAgain`:
R155). The stretch limit passed, a waiting address is refused and counted. On a port told
to disable the end of the transfer, a message's drain begun with it, takes the port to OFF in place of
OBSERVING or IDLE, and DISABLE PORT completes (`SwitchedOff`: R59, R94, log entry 26). -/
def Obligations.TransfersEnd : Prop :=
  ∀ (s : State) (p : PortId) (o : OwnId), Awake s →
    let T := (s.port p).tgt
    (T.disableTold = true → Running s →
      (∀ ending, T.transfer ≠ .none → ∃ u, exec (.targetTransferEnd p ending) s = .next u ∧
        SwitchedOff s u p ∧
        ∀ m, T.transfer = .mailboxWrite → T.staging = .filling m → m.bytes ≠ [] →
          (u.port p).tgt.staging = .draining { m with
            endTime := s.timebase, endedByRestart := ending == .restart, abandoned := false }) ∧
      (T.transfer.sends = true → ∃ u, exec (.targetReadConflict p) s = .next u ∧
        SwitchedOff s u p)) ∧
    (T.disableTold = false →
      let released : Port → Port := fun P => { P with
        sclDriven := false, sdaDriven := false, idleFrom := s.timebase, clockLowFrom := s.timebase,
        stuckDataFrom := s.timebase, tgt := { P.tgt with transfer := .none } }
      let stopped : Port → Port := fun P => { released P with
        state := .idle, inStep := true, busFree := true, awaitAddr := false, reason := none,
        enabling := false }
      let restarted : Port → Port := fun P => { released P with
        state := .observing, busFree := false, awaitAddr := true }
      (Running s →
        (T.transfer.sends = false → exec (.targetReadConflict p) s = .next s) ∧
        (T.transfer = .imageRead o false →
          (T.held = none → exec (.targetReadConflict p) s =
            .next (s.modPort p fun P => { released P with state := .observing })) ∧
          ∀ offset bytes e, T.held = some (.image o offset bytes) →
            s.mgmt.command = some { entry := e, phase := .update p } →
            exec (.targetReadConflict p) s = .next (answered e .success 0 0 (s.modPort p fun P =>
              { released P with
                state := .observing,
                tgt := { P.tgt with
                  transfer := .none, held := none,
                  images := upd P.tgt.images o fun i => overlay i offset bytes } }))) ∧
        (∀ i, T.transfer = .none → exec (.targetTransferEnd p i) s = .next s) ∧
        (s.commandAt (.port p .enable) = false →
          (T.transfer = .refused ∨ (∃ f, T.transfer = .imageWrite o f) ∨
              ((∃ d, T.transfer = .imageRead o d) ∧ T.held = none) →
            exec (.targetTransferEnd p .stop) s = .next (s.modPort p stopped) ∧
            exec (.targetTransferEnd p .restart) s = .next (s.modPort p restarted)) ∧
          (∀ pos d, T.transfer = .replyRead o pos d → T.held = none →
            (pos < (T.replies.get o).bytes.length →
              exec (.targetTransferEnd p .stop) s = .next (s.modPort p fun P => { stopped P with
                tgt := { P.tgt with
                  transfer := .none,
                  replies := upd P.tgt.replies o fun r => { r with state := .loaded } } })) ∧
            ((T.replies.get o).bytes.length ≤ pos →
              ∃ u, exec (.targetTransferEnd p .stop) s = .next u ∧
                u.ports = (s.modPort p fun P => { stopped P with
                  stats := { P.stats with repliesTaken := P.stats.repliesTaken + 1 },
                  tgt := { P.tgt with
                    transfer := .none,
                    replies := upd P.tgt.replies o fun _ =>
                      { state := .empty, bytes := [] } } }).ports ∧
                ∃ x ∈ u.mgmt.latches, x.latch = .replyTaken p o)) ∧
          (∀ (ending : TransferEnding) (f : Port → Port),
            (ending, f) ∈ [(TransferEnding.stop, stopped), (.restart, restarted)] →
            ∀ e, s.mgmt.command = some { entry := e, phase := .update p } →
            (∀ d i offset bytes, T.transfer = .imageRead o d →
              T.held = some (.image i offset bytes) → exec (.targetTransferEnd p ending) s =
                .next (answered e .success 0 0 (s.modPort p fun P => { f P with
                  tgt := { P.tgt with
                    transfer := .none, held := none,
                    images := upd P.tgt.images i fun x => overlay x offset bytes } }))) ∧
            (∀ pos d bytes, T.transfer = .replyRead o pos d → T.held = some (.reply o bytes) →
              let loaded : Target → Target := fun U => { U with
                transfer := .none, held := none,
                replies := upd U.replies o fun _ => { state := .loaded, bytes := bytes } }
              (pos < (T.replies.get o).bytes.length → exec (.targetTransferEnd p ending) s =
                .next (answered e .success 0 0 (s.modPort p fun P =>
                  { f P with tgt := loaded P.tgt }))) ∧
              ((T.replies.get o).bytes.length ≤ pos →
                ∃ u, exec (.targetTransferEnd p ending) s = .next u ∧
                  u.ports = (s.modPort p fun P => { f P with
                    stats := { P.stats with repliesTaken := P.stats.repliesTaken + 1 },
                    tgt := loaded P.tgt }).ports ∧
                  (∃ x ∈ u.mgmt.latches, x.latch = .replyTaken p o) ∧ u.mgmt.command = none ∧
                  u.mgmt.due = some (completionRecord e .success 0 0 s.timebase)))) ∧
          (∀ m, T.transfer = .mailboxWrite → T.staging = .filling m → m.bytes ≠ [] →
            let drain (again : Bool) (f : Port → Port) : State := (s.modPort p fun P => { f P with
              tgt := { P.tgt with
                transfer := .none,
                staging := .draining
                  { m with endTime := s.timebase, endedByRestart := again, abandoned := false } } }).issued
              (.targetDrain p) (.write [(m.buffer.addr, m.bytes)]) false
            exec (.targetTransferEnd p .stop) s = .next (drain false stopped) ∧
            exec (.targetTransferEnd p .restart) s = .next (drain true restarted))) ∧
        (∀ who addr since, T.transfer = .deciding who addr since →
          let refused (f : Stats → Stats) : State := s.modPort p fun P => { P with
            state := .observing, sclDriven := false, lastAck := some false,
            idleFrom := s.timebase, clockLowFrom := s.timebase, stuckDataFrom := s.timebase,
            stats := f P.stats, tgt := { P.tgt with transfer := .refused } }
          ((s.timebase - since).toNat < (s.port p).cfg.stretch.toNat * 10 →
            exec (.stretchLimitExpiry p) s = .next s) ∧
          ((s.port p).cfg.stretch.toNat * 10 ≤ (s.timebase - since).toNat →
            (∀ x, T.atHand = .present x → exec (.stretchLimitExpiry p) s =
              .next (refused fun c => { c with refusedBusy := c.refusedBusy + 1 })) ∧
            (T.atHand = .wanted ∨ T.atHand = .fetching →
              ∃ u, exec (.stretchLimitExpiry p) s = .next u ∧
                u.ports = (refused fun c =>
                  { c with refusedNoBuffer := c.refusedNoBuffer + 1 }).ports ∧
                ∃ x ∈ u.mgmt.latches, x.latch = .ringEmpty p)))) ∧
      ∀ (m : Message) (a : Access) (rest : List Access) (ok : Bool), s.link.ctrl ≠ .stopping →
        InFlight (· == .targetDrain p) 0 s a rest → EndsAs a ok 0 → T.staging = .draining m →
        T.records = [] → (s.cq m.buffer.cq).state = .running →
        let e : HoldEntry := ⟨messageRecord p m ok, m.buffer.cq, false, none⟩
        let decides (v : State) : Prop := ∃ u, exec (.targetDrainEnd p ok) s = .next u ∧
          u = { v with ports := u.ports, mgmt := { s.mgmt with latches := u.mgmt.latches } } ∧
          DecidesAgain v u p ∧ ∀ r, r ≠ p → u.port r = s.port r
        (s.comp.holding.length < 32 → decides
          ({ s.inFlight rest with comp := { s.comp with holding := s.comp.holding ++ [e] } }.modPort p
            fun P => { P with
              stats := { P.stats with messages := P.stats.messages + 1 },
              tgt := { P.tgt with staging := .free } })) ∧
        (32 ≤ s.comp.holding.length → decides
          ((s.inFlight rest).modTarget p fun T =>
            { T with
              staging := .posting,
              records := [{
                receive := ⟨messageRecord p m ok, m.buffer.cq⟩, message := true }] })))

/-- The receive ring (R160, R162 to R164). RUNNING with a buffer posted, no fetch and no waiting record,
the unit serves the next port WANTED: the port is FETCHING, and the 16-byte entry is read for the
receive CQ the port names. The entry read, the taken count rises and the status word is written: with a
capacity of 16 to 4096 the port has the buffer, and otherwise wants one again while a MALFORMED record
goes to the holding list. A failed read, or a failed status word write, takes a RUNNING ring to ERROR;
for the latter one status word is written, and when that write fails nothing follows, whatever the state
is by then (log entry 56: the model's reading). When a buffer is delivered, a port wants one again, or
the ring goes to ERROR, every mailbox decision that waits is taken again (`DecidesAgain`: R155). -/
def Obligations.BuffersAreFetched : Prop :=
  ∀ s : State, Awake s →
    let decides (c : Instr) (v : State) : Prop := ∃ u, exec c s = .next u ∧
      u = { v with ports := u.ports, mgmt := { s.mgmt with latches := u.mgmt.latches } } ∧
      ∀ r, DecidesAgain v u r
    (Running s →
      (s.rx.state ≠ .running ∨ s.rx.fetch ≠ none ∨ s.rx.waiting ≠ none ∨ s.rx.posted = s.rx.taken ∨
          (∀ r, (s.port r).tgt.atHand ≠ .wanted) → exec .receiveFetchStart s = .next s) ∧
      ∀ (p : PortId) (pre post : List PortId) (n : CqId), s.rx.state = .running →
        s.rx.fetch = none → s.rx.waiting = none → s.rx.posted ≠ s.rx.taken →
        (s.rx.posted - s.rx.taken).toNat ≤ s.rx.size.toNat →
        after s.rx.lastServed = pre ++ p :: post →
        (∀ r ∈ pre, (s.port r).tgt.atHand ≠ .wanted) → (s.port p).tgt.atHand = .wanted →
        (s.port p).cfg.rxCq = some n →
        exec .receiveFetchStart s = .next
          (({ s with rx := { s.rx with fetch := some (p, n), lastServed := p } }.modTarget p fun T =>
            { T with atHand := .fetching }).issued .rxEntry
            (.read [(s.rx.base +
              BitVec.ofNat 64 (16 * (s.rx.taken.toNat % s.rx.size.toNat)), 16)]) false)) ∧
    ∀ (a : Access) (rest : List Access), s.link.ctrl ≠ .stopping →
      (∀ (p : PortId) (n : CqId) (d : Vector Byte 16), InFlight (· == .rxEntry) 0 s a rest →
        s.rx.fetch = some (p, n) → (s.port p).tgt.atHand = .fetching → s.rx.state = .running →
        let cap := rd16 d.toList 8
        let taken : State := { s.inFlight rest with
          rx := { s.rx with fetch := none, taken := s.rx.taken + 1 } }
        let word : Xfer := .write
          [(s.statusSlot 14, statusWord (s.rx.taken + 1) 1 s.rx.reason.code s.timebase)]
        (EndsAs a true 16 →
          (16 ≤ cap.toNat → cap.toNat ≤ 4096 → decides (.receiveFetchEnd true d)
            ((taken.modTarget p fun T => { T with
              atHand := .present
                { addr := rd64 d.toList 0, cap := cap, tag := rd16 d.toList 10, cq := n } }).issued
              .rxStatus word false)) ∧
          (cap.toNat < 16 ∨ 4096 < cap.toNat → (s.cq n).state = .running →
            s.comp.holding.length < 32 → s.rx.waiting = none → decides (.receiveFetchEnd true d)
            (({ taken with
                comp := { s.comp with holding := s.comp.holding ++
                  [HoldEntry.mk (receiveRecord p 0x0C 0 (rd16 d.toList 10) 0 0 0 cap s.timebase
                    s.timebase) n false none] } }.modTarget p fun T => { T with atHand := .wanted }).issued
              .rxStatus word false))) ∧
        ∃ u, exec (.receiveFetchEnd false d) s = .next u ∧
          u.rx = { s.rx with fetch := none, state := .error, reason := .entryRead } ∧
          (u.port p).tgt.atHand = .wanted ∧ (∃ x ∈ u.mgmt.latches, x.latch = .ringError) ∧
          ∀ r, DecidesAgain ({ s with rx := u.rx }.modTarget p fun T => { T with atHand := .wanted })
            u r) ∧
      ∀ k, InFlight (· == .rxStatus) k s a rest → a.forCommand = false →
        (EndsAs a true 0 →
          exec (.receiveStatusWordWriteEnd k true) s = .next (s.inFlight rest)) ∧
        (s.rx.state ≠ .running ∨ a.further = true →
          exec (.receiveStatusWordWriteEnd k false) s = .next (s.inFlight rest)) ∧
        (s.rx.state = .running → a.further = false →
          ∃ u, exec (.receiveStatusWordWriteEnd k false) s = .next u ∧
          u.rx = { s.rx with state := .error, reason := .statusWrite } ∧
          (∃ x ∈ u.mgmt.latches, x.latch = .ringError) ∧
          u.accesses = rest ++ [⟨.rxStatus, .write [(s.statusSlot 14,
            statusWord s.rx.taken 2 3 s.timebase)], s.timebase, false, !s.link.busMaster, true⟩] ∧
          ∀ r, DecidesAgain { s with rx := u.rx } u r)

/-! ### The trigger table (chapter 7) -/

/-- The tick and the expiries (R125 to R132). TP + 1 µs after the last, with its expiries taken (log
entry 6), a tick decrements the counters of the ARMED entries and names those due, and leaves the
others. A periodic expiry of an entry with no instance outstanding, a free slot and room in the list
makes its instance and reloads the entry, or disables a ONE_SHOT one; with an instance outstanding it is
skipped and counted. An ALERT entry fires on a falling edge with the present as its trigger time; held
off, it latches the first edge, and at the end of its holdoff fires with the time captured; with an edge
latched another is skipped. A LEVEL entry, armed and not held off, expires at a falling edge, at the end
of its holdoff with its line low, and at each tick with its line low; held off, it takes no note of an
edge (R129). That such a tick makes it due, and END_OF_HOLDOFF then takes its expiry, is the model's
reading (log entry 6). With no trigger slot free, or the list full, an expiry is skipped with NO_ROOM,
which leaves an ALERT entry not held off (R131, R129). With REPORT_SKIPS the record of a skip is offered
once: it enters a list with room and is counted, is discarded and counted for a queue not RUNNING, and
is dropped by a full list (R132). Every expiry takes one sequence number. -/
def Obligations.TriggersExpire : Prop :=
  ∀ s : State, Running s →
    let made (u v : State) (t : TrigId) (k : SlotId) (r : Request) (time : Word) : Prop :=
      v.txn k = some (newInstance t (s.trigger t) r (s.trigger t).sequence time s.timebase) ∧
      (v.port (portOf r.port)).list.length = (u.port (portOf r.port)).list.length + 1 ∧
      k ∈ (v.port (portOf r.port)).list ∧
      (∀ q, q ≠ portOf r.port → v.port q = u.port q) ∧ (∀ j, j ≠ k → v.txn j = u.txn j) ∧
      ∀ w, w ≠ t → v.trigger w = u.trigger w
    (∀ alerts : BitVec 4,
      (s.trig.tickDue ≠ [] ∨ s.trig.prescaler = none ∨ (∃ x, s.trig.prescaler = some x ∧
          (s.timebase - x).toNat < s.trig.tp.toNat + 1) → exec (.tick alerts) s = .next s) ∧
      ∀ x, s.trig.tickDue = [] → s.trig.prescaler = some x →
        s.trig.tp.toNat + 1 ≤ (s.timebase - x).toNat →
        ∃ u, exec (.tick alerts) s = .next u ∧ u = { s with trig := u.trig } ∧
          u.trig.prescaler = some s.timebase ∧ u.trig.tickTime = s.timebase ∧
          ∀ t,
            ((s.trigger t).state ≠ .armed → u.trigger t = s.trigger t ∧ t ∉ u.trig.tickDue) ∧
            ((s.trigger t).state = .armed → (s.trigger t).kind = .periodic →
              u.trigger t = { s.trigger t with downCounter := (s.trigger t).downCounter - 1 } ∧
              (t ∈ u.trig.tickDue ↔ (u.trigger t).downCounter = 0)) ∧
            ((s.trigger t).state = .armed → (s.trigger t).kind = .alert →
              (s.trigger t).alertMode = .edge →
              ((s.trigger t).holdoffCtr = 0 → u.trigger t = s.trigger t ∧ t ∉ u.trig.tickDue) ∧
              ((s.trigger t).holdoffCtr ≠ 0 →
                u.trigger t = { s.trigger t with holdoffCtr := (s.trigger t).holdoffCtr - 1 } ∧
                (t ∈ u.trig.tickDue ↔ (u.trigger t).holdoffCtr = 0))) ∧
            ((s.trigger t).state = .armed → (s.trigger t).kind = .alert →
              (s.trigger t).alertMode = .level →
              u.trigger t = { s.trigger t with
                holdoffCtr := if (s.trigger t).holdoffCtr = 0 then 0
                  else (s.trigger t).holdoffCtr - 1 } ∧
              (t ∈ u.trig.tickDue ↔ (s.trigger t).holdoffCtr = 1 ∨
                alerts.getLsbD (s.trigger t).alertPort.val = true ∧
                  (s.trigger t).outstanding = false ∧ (s.trigger t).holdoffCtr = 0 ∧
                  (s.trigger t).holdoffEnded = false))) ∧
    (∀ (t : TrigId) (k : SlotId) (r : Request), (s.trigger t).template = some r →
      (s.trigger t).kind = .periodic →
      (s.trig.tickDue.head? ≠ some t → exec (.periodicExpiry t) s = .next s) ∧
      (s.trig.tickDue.head? = some t → (s.trigger t).outstanding = false →
        s.freeTriggerSlot = some k → (s.port (portOf r.port)).list.length < 32 →
        (s.trigger t).oneShot = false →
        ∃ u, exec (.periodicExpiry t) s = .next u ∧ made s u t k r s.trig.tickTime ∧
          u.trigger t = { s.trigger t with
            sequence := (s.trigger t).sequence + 1, outstanding := true,
            downCounter := (s.trigger t).period } ∧
          u.trig.tickDue = s.trig.tickDue.tail) ∧
      (s.trig.tickDue.head? = some t → (s.trigger t).outstanding = true →
        (s.trigger t).reportSkips = false →
        ((s.trigger t).oneShot = false → ∃ u, exec (.periodicExpiry t) s = .next u ∧
          u.trigger t = { s.trigger t with
            sequence := (s.trigger t).sequence + 1, skips := satInc (s.trigger t).skips,
            downCounter := (s.trigger t).period } ∧ u = { s with trig := u.trig } ∧
          ∀ w, w ≠ t → u.trigger w = s.trigger w) ∧
        ((s.trigger t).oneShot = true → ∃ u, exec (.periodicExpiry t) s = .next u ∧
          u.trigger t = { s.trigger t with
            sequence := (s.trigger t).sequence + 1, skips := satInc (s.trigger t).skips,
            state := .disabled, downCounter := 0, holdoffCtr := 0, latched := none, first := false,
            holdoffEnded := false }))) ∧
    (∀ (t : TrigId) (r : Request) (d : Byte), (s.trigger t).template = some r →
      (s.trigger t).kind = .periodic → s.trig.tickDue.head? = some t → (s.trigger t).oneShot = false →
      ((s.trigger t).outstanding = true ∧ d = 1 ∨ (s.trigger t).outstanding = false ∧ d = 2 ∧
        (s.freeTriggerSlot = none ∨ 32 ≤ (s.port (portOf r.port)).list.length)) →
      ∃ u, exec (.periodicExpiry t) s = .next u ∧ u.slots = s.slots ∧ u.ports = s.ports ∧
        let skipped (reports : Half) : Prop := u.trigger t = { s.trigger t with
          sequence := (s.trigger t).sequence + 1, skips := satInc (s.trigger t).skips,
          downCounter := (s.trigger t).period, reports := reports }
        ((s.trigger t).reportSkips = false → skipped (s.trigger t).reports ∧ u.comp = s.comp) ∧
        ((s.trigger t).reportSkips = true →
          ((s.cq (s.trigger t).cq).state = .running → s.comp.holding.length < 32 →
            skipped (satInc (s.trigger t).reports) ∧
            u.comp = { s.comp with holding := s.comp.holding ++
              [⟨skippedRecord t r d (s.trigger t).sequence s.trig.tickTime s.timebase,
                (s.trigger t).cq, r.notify, none⟩] }) ∧
          ((s.cq (s.trigger t).cq).state = .running → 32 ≤ s.comp.holding.length →
            skipped (s.trigger t).reports ∧ u.comp = s.comp) ∧
          ((s.cq (s.trigger t).cq).state ≠ .running →
            skipped (satInc (s.trigger t).reports) ∧ u.comp = s.comp))) ∧
    (∀ (t : TrigId) (r : Request) (p : PortId), (s.trigger t).template = some r →
      (s.trigger t).state = .armed → (s.trigger t).kind = .alert → (s.trigger t).alertPort = p →
      (s.trigger t).alertMode = .level →
      (∀ w, w ≠ t → (s.trigger w).state ≠ .armed ∨ (s.trigger w).kind = .periodic ∨
        (s.trigger w).alertPort ≠ p) →
      let level (b : Bool) : State := { s with
        trig := { s.trig with alertLow := upd s.trig.alertLow p fun _ => b } }
      let due (b : Bool) : State := { level b with
        trig := { (level b).trig with tickDue := s.trig.tickDue.tail } }
      (s.heldOff t = true → exec (.alertFallingTransition p) s = .next (level true)) ∧
      (s.heldOff t = false →
        (s.freeTriggerSlot = none ∨ 32 ≤ (s.port (portOf r.port)).list.length) →
        (s.trigger t).reportSkips = false → exec (.alertFallingTransition p) s = .next
          ((level true).modTrigger t fun E =>
            { E with sequence := E.sequence + 1, skips := satInc E.skips })) ∧
      (∀ k, s.freeTriggerSlot = some k → (s.port (portOf r.port)).list.length < 32 →
        (s.heldOff t = false → ∃ u, exec (.alertFallingTransition p) s = .next u ∧
          made s u t k r s.timebase ∧ u.trigger t = { s.trigger t with
            sequence := (s.trigger t).sequence + 1, outstanding := true }) ∧
        (s.trig.tickDue.head? = some t → t ∉ s.trig.tickDue.tail →
          (s.trigger t).outstanding = false → (s.trigger t).holdoffCtr = 0 →
          (s.trigger t).holdoffEnded = false → ∃ u, exec (.endOfHoldoff t true) s = .next u ∧
            made s u t k r s.trig.tickTime ∧ u.trigger t = { s.trigger t with
              sequence := (s.trigger t).sequence + 1, outstanding := true }) ∧
        (t ∉ s.trig.tickDue → (s.trigger t).holdoffEnded = true → (s.trigger t).outstanding = false →
          (s.trigger t).holdoffCtr = 0 → ∃ u, exec (.endOfHoldoff t true) s = .next u ∧
            made s u t k r s.timebase ∧ u.trigger t = { s.trigger t with
              sequence := (s.trigger t).sequence + 1, outstanding := true,
              holdoffEnded := false })) ∧
      (s.trig.tickDue.head? = some t → t ∉ s.trig.tickDue.tail →
        exec (.endOfHoldoff t false) s = .next (due false)) ∧
      (t ∉ s.trig.tickDue → (s.trigger t).holdoffEnded = true →
        exec (.endOfHoldoff t false) s = .next
          ((level false).modTrigger t fun E => { E with holdoffEnded := false }))) ∧
    (∀ (t : TrigId) (k : SlotId) (r : Request) (p : PortId), (s.trigger t).template = some r →
      (s.trigger t).state = .armed → (s.trigger t).kind = .alert → (s.trigger t).alertPort = p →
      (s.trigger t).alertMode = .edge →
      (∀ w, w ≠ t → (s.trigger w).state ≠ .armed ∨ (s.trigger w).kind = .periodic ∨
        (s.trigger w).alertPort ≠ p) →
      let low : State := { s with
        trig := { s.trig with alertLow := upd s.trig.alertLow p fun _ => true } }
      (s.heldOff t = false → s.freeTriggerSlot = some k →
        (s.port (portOf r.port)).list.length < 32 →
        ∃ u, exec (.alertFallingTransition p) s = .next u ∧ made s u t k r s.timebase ∧
          u.trigger t = { s.trigger t with
            sequence := (s.trigger t).sequence + 1, outstanding := true }) ∧
      (s.heldOff t = true →
        ((s.trigger t).latched = none → exec (.alertFallingTransition p) s =
          .next (low.modTrigger t fun E => { E with latched := some s.timebase })) ∧
        ((s.trigger t).latched ≠ none → (s.trigger t).reportSkips = false →
          exec (.alertFallingTransition p) s = .next (low.modTrigger t fun E =>
            { E with sequence := E.sequence + 1, skips := satInc E.skips }))) ∧
      ∀ (b : Bool) (c : Word), s.trig.tickDue.head? = some t → t ∉ s.trig.tickDue.tail →
        (s.trigger t).outstanding = false → (s.trigger t).holdoffCtr = 0 →
        (s.trigger t).holdoffEnded = false →
        ((s.trigger t).latched = none → exec (.endOfHoldoff t b) s = .next
          { s with trig := { s.trig with
            tickDue := s.trig.tickDue.tail,
            alertLow := upd s.trig.alertLow p fun _ => b } }) ∧
        ((s.trigger t).latched = some c → s.freeTriggerSlot = some k →
          (s.port (portOf r.port)).list.length < 32 →
          ∃ u, exec (.endOfHoldoff t b) s = .next u ∧ made s u t k r c ∧
            u.trigger t = { s.trigger t with
              sequence := (s.trigger t).sequence + 1, outstanding := true, latched := none }))

/-- The completion of an instance (R54, R127, R134 to R138), the operation the end of its service runs:
nothing is outstanding, FIRST is clear, the instance is counted; a result other than OK is counted and
added to the failures in a row, which OK sets to 0; a report keeps the read area and the result. When
the failures reach the entry's limit, it is DISABLED and the latch is set. ALWAYS reports every
completion, ON_ERROR each but OK, ON_CHANGE the first, a new result and a masked difference, ON_DELTA
the first, a new result and a difference of at least the deadband. So the STOP that ends an attempt of
an instance hands its result and read area to the trigger unit; a report goes to the holding list with
its slot, the FIRST flag as it stood before the completion (log entry 35), and without one the slot is
released at once (R54, R137). No queue holds a transaction here. -/
def Obligations.InstancesComplete : Prop :=
  (∀ (s : State) (t : TrigId) (r : Result) (area : List Byte),
    let E := s.trigger t
    let u := completeInstance t r area s
    let report : Prop := match E.mode with
      | .always => True
      | .onError => r ≠ .ok
      | .onChange => E.first = true ∨ r ≠ E.lastStatus ∨ (r = .ok ∧
          ∃ i < 8, byteAt area i &&& byteAt E.mask i ≠ byteAt E.reference i &&& byteAt E.mask i)
      | .onDelta => E.first = true ∨ r ≠ E.lastStatus ∨ (r = .ok ∧
          (E.deadband.toNat : Int) ≤ |signed16 area - signed16 E.reference|)
    (u.trigger t).outstanding = false ∧ (u.trigger t).first = false ∧
    (u.trigger t).instances.toNat = min 65535 (E.instances.toNat + 1) ∧
    (r = .ok → (u.trigger t).consecutive = 0 ∧ (u.trigger t).failures = E.failures ∧
      (u.trigger t).state = E.state) ∧
    (r ≠ .ok → (u.trigger t).consecutive.toNat = min 255 (E.consecutive.toNat + 1) ∧
      (u.trigger t).failures.toNat = min 65535 (E.failures.toNat + 1)) ∧
    (reportDecision E r area = true ↔ report) ∧
    (report → (u.trigger t).reference = area ∧ (u.trigger t).lastStatus = r ∧
      (u.trigger t).reports.toNat = min 65535 (E.reports.toNat + 1)) ∧
    (¬ report → (u.trigger t).reference = E.reference ∧
      (u.trigger t).lastStatus = E.lastStatus ∧ (u.trigger t).reports = E.reports) ∧
    (r ≠ .ok → E.state = .armed → E.failLimit ≠ 0 →
      (u.trigger t).consecutive = E.failLimit →
      (u.trigger t).state = .disabled ∧ ∃ x ∈ u.mgmt.latches, x.latch = .triggerDisabled t) ∧
    (E.state = .armed → E.kind = .alert → r = .ok → (u.trigger t).holdoffCtr = E.holdoff) ∧
    (∀ w, w ≠ t → u.trigger w = s.trigger w) ∧ u = { s with trig := u.trig, mgmt := u.mgmt }) ∧
  ∀ (s : State) (p : PortId) (k : SlotId) (x : Txn) (t : TrigId) (d : InstanceData) (r : Result)
      (detail : Byte), Awake s → (s.port p).inService = some k → s.txn k = some x →
    x.origin = .trigger t → x.trig = some d → (s.port p).eng.phase = .closing →
    (s.port p).eng.outcome = some (.result r detail) → (s.port p).eng.quiet = false →
    (s.port p).tgt.disableTold = false → LeavesAlone s p →
    let area := readAreaOf x.req (s.port p).inbound
    let d' : InstanceData := { d with readArea := area, first := (s.trigger t).first }
    let done : Txn := { x with
      state := .recorded, started := some (x.started.getD s.timebase), result := r, detail := detail,
      segIndex := (s.port p).eng.segment, writeCount := (s.port p).eng.writeCount,
      readCount := (s.port p).eng.readCount, endTime := s.timebase, trig := some d' }
    ∃ u, exec (.masterStopComplete p) s = .next u ∧ u.trig = (completeInstance t r area s).trig ∧
      (u.port p).state = .idle ∧
      ((reportDecision (s.trigger t) r area = false ∨
          (s.cq x.cq).state = .running ∧ s.comp.holding.length < 32) →
        (u.port p).list = (s.port p).list.tail ∧ (u.port p).inService = none ∧
        (u.port p).stats.completed = (s.port p).stats.completed + 1) ∧
      (reportDecision (s.trigger t) r area = false →
        u.slots.get k = .free ∧ u.comp = s.comp) ∧
      (reportDecision (s.trigger t) r area = true → (s.cq x.cq).state = .running →
        s.comp.holding.length < 32 → u.txn k = some done ∧
        u.comp = { s.comp with holding := s.comp.holding ++
          [⟨reportRecord t done d', x.cq, x.req.notify, some k⟩] })

/-! ### The check byte (chapter 1) -/

/-- The check value (R16) advances linearly, so that the value after a run of bytes and then the value
itself is 0, as a receiver of the check byte finds, and no single byte can be changed without the value
changing. -/
def Obligations.CheckValue : Prop :=
  (∀ a b c d : Byte, crcByte (a ^^^ b) (c ^^^ d) = crcByte a c ^^^ crcByte b d) ∧
  (∀ (l : List Byte) (c : Byte), (l ++ [l.foldl crcByte c]).foldl crcByte c = 0) ∧
  ∀ (pre post : List Byte) (x y c : Byte),
    (pre ++ x :: post).foldl crcByte c = (pre ++ y :: post).foldl crcByte c → x = y
end

