-- ==== Sys2Proof/Laws/State.lean ====
section
/-! SUPPORT. The small lemmas of the updates of State: what an update leaves alone, by rfl, and what a
read of one object gives after an update of one object. -/

namespace Sys2Proof.Machine

variable (s : State)

/-! ### One object of many -/

@[simp] theorem get_upd {α : Type} {n : Nat} (v : Vector α n) (i j : Fin n) (f : α → α) :
    (upd v i f).get j = if i = j then f (v.get i) else v.get j := by
  have e : (upd v i f).get j = (upd v i f)[j.val] := rfl
  have e' : v.get j = v[j.val] := rfl
  rw [e, e']
  unfold upd
  rw [Vector.getElem_set]
  by_cases h : i = j
  · simp [h]
  · have h' : i.val ≠ j.val := fun e => h (Fin.ext e)
    simp [h, h']

@[simp] theorem get_replicate {α : Type} {n : Nat} (a : α) (i : Fin n) :
    (Vector.replicate n a).get i = a := by simp [Vector.get]

@[simp] theorem get_map {α β : Type} {n : Nat} (f : α → β) (v : Vector α n) (i : Fin n) :
    (v.map f).get i = f (v.get i) := by simp [Vector.get]

@[simp] theorem port_modPort (p q : PortId) (f : Port → Port) :
    (s.modPort p f).port q = if p = q then f (s.port p) else s.port q := get_upd _ _ _ _
@[simp] theorem port_modTarget (p q : PortId) (f : Target → Target) :
    (s.modTarget p f).port q =
      if p = q then { s.port p with tgt := f (s.port p).tgt } else s.port q := get_upd _ _ _ _
@[simp] theorem port_modStats (p q : PortId) (f : Stats → Stats) :
    (s.modStats p f).port q =
      if p = q then { s.port p with stats := f (s.port p).stats } else s.port q := get_upd _ _ _ _
@[simp] theorem rq_modRq (p q : RqId) (f : RqCtx → RqCtx) :
    (s.modRq p f).rq q = if p = q then f (s.rq p) else s.rq q := get_upd _ _ _ _
@[simp] theorem cq_modCq (p q : CqId) (f : CqCtx → CqCtx) :
    (s.modCq p f).cq q = if p = q then f (s.cq p) else s.cq q := get_upd _ _ _ _
@[simp] theorem trigger_modTrigger (p q : TrigId) (f : Trigger → Trigger) :
    (s.modTrigger p f).trigger q = if p = q then f (s.trigger p) else s.trigger q := get_upd _ _ _ _
@[simp] theorem slot_setSlot (k j : SlotId) (x : Slot) :
    (s.setSlot k x).slots.get j = if k = j then x else s.slots.get j := get_upd _ _ _ _
@[simp] theorem txn_setSlot (k j : SlotId) (x : Slot) :
    (s.setSlot k x).txn j =
      if k = j then (match x with | .txn t => some t | _ => none) else s.txn j := by
  unfold State.txn
  rw [slot_setSlot]
  by_cases h : k = j <;> simp only [h, if_true, if_false] <;> rfl

theorem slot_of_txn {s : State} {k : SlotId} {t : Txn} (h : s.txn k = some t) :
    s.slots.get k = .txn t := by
  unfold State.txn at h
  split at h
  · rename_i u e; rw [e]; simp_all
  · cases h

/-- A change of the transaction in an occupied slot writes the slot. -/
theorem modTxn_of_txn {s : State} {k : SlotId} {t : Txn} (h : s.txn k = some t) (f : Txn → Txn) :
    s.modTxn k f = s.setSlot k (.txn (f t)) := by
  unfold State.modTxn; rw [slot_of_txn h]

/-- A change of the transaction in a slot that holds none does nothing. -/
theorem modTxn_of_none {s : State} {k : SlotId} (h : s.txn k = none) (f : Txn → Txn) :
    s.modTxn k f = s := by
  unfold State.txn at h; unfold State.modTxn
  split at h <;> simp_all

/-- What a slot holds after a change of one slot's transaction. -/
@[simp] theorem txn_modTxn (k j : SlotId) (f : Txn → Txn) :
    (s.modTxn k f).txn j = if k = j then (s.txn k).map f else s.txn j := by
  cases h : s.txn k with
  | some t => rw [modTxn_of_txn h, txn_setSlot]; simp
  | none => rw [modTxn_of_none h]; split <;> simp_all

/-! ### What an update leaves alone -/

@[simp] theorem modPort_pending (p : PortId) (f : Port → Port) : (s.modPort p f).pending = s.pending := rfl
@[simp] theorem modPort_link (p : PortId) (f : Port → Port) : (s.modPort p f).link = s.link := rfl
@[simp] theorem modPort_ints (p : PortId) (f : Port → Port) : (s.modPort p f).ints = s.ints := rfl
@[simp] theorem modPort_timebase (p : PortId) (f : Port → Port) : (s.modPort p f).timebase = s.timebase := rfl
@[simp] theorem modPort_accesses (p : PortId) (f : Port → Port) : (s.modPort p f).accesses = s.accesses := rfl
@[simp] theorem modPort_mgmt (p : PortId) (f : Port → Port) : (s.modPort p f).mgmt = s.mgmt := rfl
@[simp] theorem modPort_rqs (p : PortId) (f : Port → Port) : (s.modPort p f).rqs = s.rqs := rfl
@[simp] theorem modPort_slots (p : PortId) (f : Port → Port) : (s.modPort p f).slots = s.slots := rfl
@[simp] theorem modPort_fetch (p : PortId) (f : Port → Port) : (s.modPort p f).fetch = s.fetch := rfl
@[simp] theorem modPort_cqs (p : PortId) (f : Port → Port) : (s.modPort p f).cqs = s.cqs := rfl
@[simp] theorem modPort_comp (p : PortId) (f : Port → Port) : (s.modPort p f).comp = s.comp := rfl
@[simp] theorem modPort_rx (p : PortId) (f : Port → Port) : (s.modPort p f).rx = s.rx := rfl
@[simp] theorem modPort_trig (p : PortId) (f : Port → Port) : (s.modPort p f).trig = s.trig := rfl
@[simp] theorem modPort_rq (p : PortId) (f : Port → Port) (y : RqId) : (s.modPort p f).rq y = s.rq y := rfl
@[simp] theorem modPort_cq (p : PortId) (f : Port → Port) (y : CqId) : (s.modPort p f).cq y = s.cq y := rfl
@[simp] theorem modPort_trigger (p : PortId) (f : Port → Port) (y : TrigId) : (s.modPort p f).trigger y = s.trigger y := rfl
@[simp] theorem modPort_txn (p : PortId) (f : Port → Port) (y : SlotId) : (s.modPort p f).txn y = s.txn y := rfl

@[simp] theorem modTarget_pending (p : PortId) (f : Target → Target) : (s.modTarget p f).pending = s.pending := rfl
@[simp] theorem modTarget_link (p : PortId) (f : Target → Target) : (s.modTarget p f).link = s.link := rfl
@[simp] theorem modTarget_ints (p : PortId) (f : Target → Target) : (s.modTarget p f).ints = s.ints := rfl
@[simp] theorem modTarget_timebase (p : PortId) (f : Target → Target) : (s.modTarget p f).timebase = s.timebase := rfl
@[simp] theorem modTarget_accesses (p : PortId) (f : Target → Target) : (s.modTarget p f).accesses = s.accesses := rfl
@[simp] theorem modTarget_mgmt (p : PortId) (f : Target → Target) : (s.modTarget p f).mgmt = s.mgmt := rfl
@[simp] theorem modTarget_rqs (p : PortId) (f : Target → Target) : (s.modTarget p f).rqs = s.rqs := rfl
@[simp] theorem modTarget_slots (p : PortId) (f : Target → Target) : (s.modTarget p f).slots = s.slots := rfl
@[simp] theorem modTarget_fetch (p : PortId) (f : Target → Target) : (s.modTarget p f).fetch = s.fetch := rfl
@[simp] theorem modTarget_cqs (p : PortId) (f : Target → Target) : (s.modTarget p f).cqs = s.cqs := rfl
@[simp] theorem modTarget_comp (p : PortId) (f : Target → Target) : (s.modTarget p f).comp = s.comp := rfl
@[simp] theorem modTarget_rx (p : PortId) (f : Target → Target) : (s.modTarget p f).rx = s.rx := rfl
@[simp] theorem modTarget_trig (p : PortId) (f : Target → Target) : (s.modTarget p f).trig = s.trig := rfl
@[simp] theorem modTarget_rq (p : PortId) (f : Target → Target) (y : RqId) : (s.modTarget p f).rq y = s.rq y := rfl
@[simp] theorem modTarget_cq (p : PortId) (f : Target → Target) (y : CqId) : (s.modTarget p f).cq y = s.cq y := rfl
@[simp] theorem modTarget_trigger (p : PortId) (f : Target → Target) (y : TrigId) : (s.modTarget p f).trigger y = s.trigger y := rfl
@[simp] theorem modTarget_txn (p : PortId) (f : Target → Target) (y : SlotId) : (s.modTarget p f).txn y = s.txn y := rfl

@[simp] theorem modStats_pending (p : PortId) (f : Stats → Stats) : (s.modStats p f).pending = s.pending := rfl
@[simp] theorem modStats_link (p : PortId) (f : Stats → Stats) : (s.modStats p f).link = s.link := rfl
@[simp] theorem modStats_ints (p : PortId) (f : Stats → Stats) : (s.modStats p f).ints = s.ints := rfl
@[simp] theorem modStats_timebase (p : PortId) (f : Stats → Stats) : (s.modStats p f).timebase = s.timebase := rfl
@[simp] theorem modStats_accesses (p : PortId) (f : Stats → Stats) : (s.modStats p f).accesses = s.accesses := rfl
@[simp] theorem modStats_mgmt (p : PortId) (f : Stats → Stats) : (s.modStats p f).mgmt = s.mgmt := rfl
@[simp] theorem modStats_rqs (p : PortId) (f : Stats → Stats) : (s.modStats p f).rqs = s.rqs := rfl
@[simp] theorem modStats_slots (p : PortId) (f : Stats → Stats) : (s.modStats p f).slots = s.slots := rfl
@[simp] theorem modStats_fetch (p : PortId) (f : Stats → Stats) : (s.modStats p f).fetch = s.fetch := rfl
@[simp] theorem modStats_cqs (p : PortId) (f : Stats → Stats) : (s.modStats p f).cqs = s.cqs := rfl
@[simp] theorem modStats_comp (p : PortId) (f : Stats → Stats) : (s.modStats p f).comp = s.comp := rfl
@[simp] theorem modStats_rx (p : PortId) (f : Stats → Stats) : (s.modStats p f).rx = s.rx := rfl
@[simp] theorem modStats_trig (p : PortId) (f : Stats → Stats) : (s.modStats p f).trig = s.trig := rfl
@[simp] theorem modStats_rq (p : PortId) (f : Stats → Stats) (y : RqId) : (s.modStats p f).rq y = s.rq y := rfl
@[simp] theorem modStats_cq (p : PortId) (f : Stats → Stats) (y : CqId) : (s.modStats p f).cq y = s.cq y := rfl
@[simp] theorem modStats_trigger (p : PortId) (f : Stats → Stats) (y : TrigId) : (s.modStats p f).trigger y = s.trigger y := rfl
@[simp] theorem modStats_txn (p : PortId) (f : Stats → Stats) (y : SlotId) : (s.modStats p f).txn y = s.txn y := rfl

@[simp] theorem modRq_pending (q : RqId) (f : RqCtx → RqCtx) : (s.modRq q f).pending = s.pending := rfl
@[simp] theorem modRq_link (q : RqId) (f : RqCtx → RqCtx) : (s.modRq q f).link = s.link := rfl
@[simp] theorem modRq_ints (q : RqId) (f : RqCtx → RqCtx) : (s.modRq q f).ints = s.ints := rfl
@[simp] theorem modRq_timebase (q : RqId) (f : RqCtx → RqCtx) : (s.modRq q f).timebase = s.timebase := rfl
@[simp] theorem modRq_accesses (q : RqId) (f : RqCtx → RqCtx) : (s.modRq q f).accesses = s.accesses := rfl
@[simp] theorem modRq_mgmt (q : RqId) (f : RqCtx → RqCtx) : (s.modRq q f).mgmt = s.mgmt := rfl
@[simp] theorem modRq_slots (q : RqId) (f : RqCtx → RqCtx) : (s.modRq q f).slots = s.slots := rfl
@[simp] theorem modRq_fetch (q : RqId) (f : RqCtx → RqCtx) : (s.modRq q f).fetch = s.fetch := rfl
@[simp] theorem modRq_ports (q : RqId) (f : RqCtx → RqCtx) : (s.modRq q f).ports = s.ports := rfl
@[simp] theorem modRq_cqs (q : RqId) (f : RqCtx → RqCtx) : (s.modRq q f).cqs = s.cqs := rfl
@[simp] theorem modRq_comp (q : RqId) (f : RqCtx → RqCtx) : (s.modRq q f).comp = s.comp := rfl
@[simp] theorem modRq_rx (q : RqId) (f : RqCtx → RqCtx) : (s.modRq q f).rx = s.rx := rfl
@[simp] theorem modRq_trig (q : RqId) (f : RqCtx → RqCtx) : (s.modRq q f).trig = s.trig := rfl
@[simp] theorem modRq_port (q : RqId) (f : RqCtx → RqCtx) (y : PortId) : (s.modRq q f).port y = s.port y := rfl
@[simp] theorem modRq_cq (q : RqId) (f : RqCtx → RqCtx) (y : CqId) : (s.modRq q f).cq y = s.cq y := rfl
@[simp] theorem modRq_trigger (q : RqId) (f : RqCtx → RqCtx) (y : TrigId) : (s.modRq q f).trigger y = s.trigger y := rfl
@[simp] theorem modRq_txn (q : RqId) (f : RqCtx → RqCtx) (y : SlotId) : (s.modRq q f).txn y = s.txn y := rfl

@[simp] theorem modCq_pending (n : CqId) (f : CqCtx → CqCtx) : (s.modCq n f).pending = s.pending := rfl
@[simp] theorem modCq_link (n : CqId) (f : CqCtx → CqCtx) : (s.modCq n f).link = s.link := rfl
@[simp] theorem modCq_ints (n : CqId) (f : CqCtx → CqCtx) : (s.modCq n f).ints = s.ints := rfl
@[simp] theorem modCq_timebase (n : CqId) (f : CqCtx → CqCtx) : (s.modCq n f).timebase = s.timebase := rfl
@[simp] theorem modCq_accesses (n : CqId) (f : CqCtx → CqCtx) : (s.modCq n f).accesses = s.accesses := rfl
@[simp] theorem modCq_mgmt (n : CqId) (f : CqCtx → CqCtx) : (s.modCq n f).mgmt = s.mgmt := rfl
@[simp] theorem modCq_rqs (n : CqId) (f : CqCtx → CqCtx) : (s.modCq n f).rqs = s.rqs := rfl
@[simp] theorem modCq_slots (n : CqId) (f : CqCtx → CqCtx) : (s.modCq n f).slots = s.slots := rfl
@[simp] theorem modCq_fetch (n : CqId) (f : CqCtx → CqCtx) : (s.modCq n f).fetch = s.fetch := rfl
@[simp] theorem modCq_ports (n : CqId) (f : CqCtx → CqCtx) : (s.modCq n f).ports = s.ports := rfl
@[simp] theorem modCq_comp (n : CqId) (f : CqCtx → CqCtx) : (s.modCq n f).comp = s.comp := rfl
@[simp] theorem modCq_rx (n : CqId) (f : CqCtx → CqCtx) : (s.modCq n f).rx = s.rx := rfl
@[simp] theorem modCq_trig (n : CqId) (f : CqCtx → CqCtx) : (s.modCq n f).trig = s.trig := rfl
@[simp] theorem modCq_port (n : CqId) (f : CqCtx → CqCtx) (y : PortId) : (s.modCq n f).port y = s.port y := rfl
@[simp] theorem modCq_rq (n : CqId) (f : CqCtx → CqCtx) (y : RqId) : (s.modCq n f).rq y = s.rq y := rfl
@[simp] theorem modCq_trigger (n : CqId) (f : CqCtx → CqCtx) (y : TrigId) : (s.modCq n f).trigger y = s.trigger y := rfl
@[simp] theorem modCq_txn (n : CqId) (f : CqCtx → CqCtx) (y : SlotId) : (s.modCq n f).txn y = s.txn y := rfl

@[simp] theorem modTrigger_pending (t : TrigId) (f : Trigger → Trigger) : (s.modTrigger t f).pending = s.pending := rfl
@[simp] theorem modTrigger_link (t : TrigId) (f : Trigger → Trigger) : (s.modTrigger t f).link = s.link := rfl
@[simp] theorem modTrigger_ints (t : TrigId) (f : Trigger → Trigger) : (s.modTrigger t f).ints = s.ints := rfl
@[simp] theorem modTrigger_timebase (t : TrigId) (f : Trigger → Trigger) : (s.modTrigger t f).timebase = s.timebase := rfl
@[simp] theorem modTrigger_accesses (t : TrigId) (f : Trigger → Trigger) : (s.modTrigger t f).accesses = s.accesses := rfl
@[simp] theorem modTrigger_mgmt (t : TrigId) (f : Trigger → Trigger) : (s.modTrigger t f).mgmt = s.mgmt := rfl
@[simp] theorem modTrigger_rqs (t : TrigId) (f : Trigger → Trigger) : (s.modTrigger t f).rqs = s.rqs := rfl
@[simp] theorem modTrigger_slots (t : TrigId) (f : Trigger → Trigger) : (s.modTrigger t f).slots = s.slots := rfl
@[simp] theorem modTrigger_fetch (t : TrigId) (f : Trigger → Trigger) : (s.modTrigger t f).fetch = s.fetch := rfl
@[simp] theorem modTrigger_ports (t : TrigId) (f : Trigger → Trigger) : (s.modTrigger t f).ports = s.ports := rfl
@[simp] theorem modTrigger_cqs (t : TrigId) (f : Trigger → Trigger) : (s.modTrigger t f).cqs = s.cqs := rfl
@[simp] theorem modTrigger_comp (t : TrigId) (f : Trigger → Trigger) : (s.modTrigger t f).comp = s.comp := rfl
@[simp] theorem modTrigger_rx (t : TrigId) (f : Trigger → Trigger) : (s.modTrigger t f).rx = s.rx := rfl
@[simp] theorem modTrigger_port (t : TrigId) (f : Trigger → Trigger) (y : PortId) : (s.modTrigger t f).port y = s.port y := rfl
@[simp] theorem modTrigger_rq (t : TrigId) (f : Trigger → Trigger) (y : RqId) : (s.modTrigger t f).rq y = s.rq y := rfl
@[simp] theorem modTrigger_cq (t : TrigId) (f : Trigger → Trigger) (y : CqId) : (s.modTrigger t f).cq y = s.cq y := rfl
@[simp] theorem modTrigger_txn (t : TrigId) (f : Trigger → Trigger) (y : SlotId) : (s.modTrigger t f).txn y = s.txn y := rfl

@[simp] theorem setSlot_pending (k : SlotId) (x : Slot) : (s.setSlot k x).pending = s.pending := rfl
@[simp] theorem setSlot_link (k : SlotId) (x : Slot) : (s.setSlot k x).link = s.link := rfl
@[simp] theorem setSlot_ints (k : SlotId) (x : Slot) : (s.setSlot k x).ints = s.ints := rfl
@[simp] theorem setSlot_timebase (k : SlotId) (x : Slot) : (s.setSlot k x).timebase = s.timebase := rfl
@[simp] theorem setSlot_accesses (k : SlotId) (x : Slot) : (s.setSlot k x).accesses = s.accesses := rfl
@[simp] theorem setSlot_mgmt (k : SlotId) (x : Slot) : (s.setSlot k x).mgmt = s.mgmt := rfl
@[simp] theorem setSlot_rqs (k : SlotId) (x : Slot) : (s.setSlot k x).rqs = s.rqs := rfl
@[simp] theorem setSlot_fetch (k : SlotId) (x : Slot) : (s.setSlot k x).fetch = s.fetch := rfl
@[simp] theorem setSlot_ports (k : SlotId) (x : Slot) : (s.setSlot k x).ports = s.ports := rfl
@[simp] theorem setSlot_cqs (k : SlotId) (x : Slot) : (s.setSlot k x).cqs = s.cqs := rfl
@[simp] theorem setSlot_comp (k : SlotId) (x : Slot) : (s.setSlot k x).comp = s.comp := rfl
@[simp] theorem setSlot_rx (k : SlotId) (x : Slot) : (s.setSlot k x).rx = s.rx := rfl
@[simp] theorem setSlot_trig (k : SlotId) (x : Slot) : (s.setSlot k x).trig = s.trig := rfl
@[simp] theorem setSlot_port (k : SlotId) (x : Slot) (y : PortId) : (s.setSlot k x).port y = s.port y := rfl
@[simp] theorem setSlot_rq (k : SlotId) (x : Slot) (y : RqId) : (s.setSlot k x).rq y = s.rq y := rfl
@[simp] theorem setSlot_cq (k : SlotId) (x : Slot) (y : CqId) : (s.setSlot k x).cq y = s.cq y := rfl
@[simp] theorem setSlot_trigger (k : SlotId) (x : Slot) (y : TrigId) : (s.setSlot k x).trigger y = s.trigger y := rfl

@[simp] theorem modMgmt_pending (f : Mgmt → Mgmt) : (s.modMgmt f).pending = s.pending := rfl
@[simp] theorem modMgmt_link (f : Mgmt → Mgmt) : (s.modMgmt f).link = s.link := rfl
@[simp] theorem modMgmt_ints (f : Mgmt → Mgmt) : (s.modMgmt f).ints = s.ints := rfl
@[simp] theorem modMgmt_timebase (f : Mgmt → Mgmt) : (s.modMgmt f).timebase = s.timebase := rfl
@[simp] theorem modMgmt_accesses (f : Mgmt → Mgmt) : (s.modMgmt f).accesses = s.accesses := rfl
@[simp] theorem modMgmt_rqs (f : Mgmt → Mgmt) : (s.modMgmt f).rqs = s.rqs := rfl
@[simp] theorem modMgmt_slots (f : Mgmt → Mgmt) : (s.modMgmt f).slots = s.slots := rfl
@[simp] theorem modMgmt_fetch (f : Mgmt → Mgmt) : (s.modMgmt f).fetch = s.fetch := rfl
@[simp] theorem modMgmt_ports (f : Mgmt → Mgmt) : (s.modMgmt f).ports = s.ports := rfl
@[simp] theorem modMgmt_cqs (f : Mgmt → Mgmt) : (s.modMgmt f).cqs = s.cqs := rfl
@[simp] theorem modMgmt_comp (f : Mgmt → Mgmt) : (s.modMgmt f).comp = s.comp := rfl
@[simp] theorem modMgmt_rx (f : Mgmt → Mgmt) : (s.modMgmt f).rx = s.rx := rfl
@[simp] theorem modMgmt_trig (f : Mgmt → Mgmt) : (s.modMgmt f).trig = s.trig := rfl
@[simp] theorem modMgmt_port (f : Mgmt → Mgmt) (y : PortId) : (s.modMgmt f).port y = s.port y := rfl
@[simp] theorem modMgmt_rq (f : Mgmt → Mgmt) (y : RqId) : (s.modMgmt f).rq y = s.rq y := rfl
@[simp] theorem modMgmt_cq (f : Mgmt → Mgmt) (y : CqId) : (s.modMgmt f).cq y = s.cq y := rfl
@[simp] theorem modMgmt_trigger (f : Mgmt → Mgmt) (y : TrigId) : (s.modMgmt f).trigger y = s.trigger y := rfl
@[simp] theorem modMgmt_txn (f : Mgmt → Mgmt) (y : SlotId) : (s.modMgmt f).txn y = s.txn y := rfl

@[simp] theorem issue_pending (kind : AccessKind) (x : Xfer) (c : Bool) : (issue kind x c s).pending = s.pending := rfl
@[simp] theorem issue_link (kind : AccessKind) (x : Xfer) (c : Bool) : (issue kind x c s).link = s.link := rfl
@[simp] theorem issue_ints (kind : AccessKind) (x : Xfer) (c : Bool) : (issue kind x c s).ints = s.ints := rfl
@[simp] theorem issue_timebase (kind : AccessKind) (x : Xfer) (c : Bool) : (issue kind x c s).timebase = s.timebase := rfl
@[simp] theorem issue_mgmt (kind : AccessKind) (x : Xfer) (c : Bool) : (issue kind x c s).mgmt = s.mgmt := rfl
@[simp] theorem issue_rqs (kind : AccessKind) (x : Xfer) (c : Bool) : (issue kind x c s).rqs = s.rqs := rfl
@[simp] theorem issue_slots (kind : AccessKind) (x : Xfer) (c : Bool) : (issue kind x c s).slots = s.slots := rfl
@[simp] theorem issue_fetch (kind : AccessKind) (x : Xfer) (c : Bool) : (issue kind x c s).fetch = s.fetch := rfl
@[simp] theorem issue_ports (kind : AccessKind) (x : Xfer) (c : Bool) : (issue kind x c s).ports = s.ports := rfl
@[simp] theorem issue_cqs (kind : AccessKind) (x : Xfer) (c : Bool) : (issue kind x c s).cqs = s.cqs := rfl
@[simp] theorem issue_comp (kind : AccessKind) (x : Xfer) (c : Bool) : (issue kind x c s).comp = s.comp := rfl
@[simp] theorem issue_rx (kind : AccessKind) (x : Xfer) (c : Bool) : (issue kind x c s).rx = s.rx := rfl
@[simp] theorem issue_trig (kind : AccessKind) (x : Xfer) (c : Bool) : (issue kind x c s).trig = s.trig := rfl
@[simp] theorem issue_port (kind : AccessKind) (x : Xfer) (c : Bool) (y : PortId) : (issue kind x c s).port y = s.port y := rfl
@[simp] theorem issue_rq (kind : AccessKind) (x : Xfer) (c : Bool) (y : RqId) : (issue kind x c s).rq y = s.rq y := rfl
@[simp] theorem issue_cq (kind : AccessKind) (x : Xfer) (c : Bool) (y : CqId) : (issue kind x c s).cq y = s.cq y := rfl
@[simp] theorem issue_trigger (kind : AccessKind) (x : Xfer) (c : Bool) (y : TrigId) : (issue kind x c s).trigger y = s.trigger y := rfl
@[simp] theorem issue_txn (kind : AccessKind) (x : Xfer) (c : Bool) (y : SlotId) : (issue kind x c s).txn y = s.txn y := rfl

@[simp] theorem issueErrorStatus_pending (kind : AccessKind) (x : Xfer) (c : Bool) : (issueErrorStatus kind x c s).pending = s.pending := rfl
@[simp] theorem issueErrorStatus_link (kind : AccessKind) (x : Xfer) (c : Bool) : (issueErrorStatus kind x c s).link = s.link := rfl
@[simp] theorem issueErrorStatus_ints (kind : AccessKind) (x : Xfer) (c : Bool) : (issueErrorStatus kind x c s).ints = s.ints := rfl
@[simp] theorem issueErrorStatus_timebase (kind : AccessKind) (x : Xfer) (c : Bool) : (issueErrorStatus kind x c s).timebase = s.timebase := rfl
@[simp] theorem issueErrorStatus_mgmt (kind : AccessKind) (x : Xfer) (c : Bool) : (issueErrorStatus kind x c s).mgmt = s.mgmt := rfl
@[simp] theorem issueErrorStatus_rqs (kind : AccessKind) (x : Xfer) (c : Bool) : (issueErrorStatus kind x c s).rqs = s.rqs := rfl
@[simp] theorem issueErrorStatus_slots (kind : AccessKind) (x : Xfer) (c : Bool) : (issueErrorStatus kind x c s).slots = s.slots := rfl
@[simp] theorem issueErrorStatus_fetch (kind : AccessKind) (x : Xfer) (c : Bool) : (issueErrorStatus kind x c s).fetch = s.fetch := rfl
@[simp] theorem issueErrorStatus_ports (kind : AccessKind) (x : Xfer) (c : Bool) : (issueErrorStatus kind x c s).ports = s.ports := rfl
@[simp] theorem issueErrorStatus_cqs (kind : AccessKind) (x : Xfer) (c : Bool) : (issueErrorStatus kind x c s).cqs = s.cqs := rfl
@[simp] theorem issueErrorStatus_comp (kind : AccessKind) (x : Xfer) (c : Bool) : (issueErrorStatus kind x c s).comp = s.comp := rfl
@[simp] theorem issueErrorStatus_rx (kind : AccessKind) (x : Xfer) (c : Bool) : (issueErrorStatus kind x c s).rx = s.rx := rfl
@[simp] theorem issueErrorStatus_trig (kind : AccessKind) (x : Xfer) (c : Bool) : (issueErrorStatus kind x c s).trig = s.trig := rfl
@[simp] theorem issueErrorStatus_port (kind : AccessKind) (x : Xfer) (c : Bool) (y : PortId) : (issueErrorStatus kind x c s).port y = s.port y := rfl
@[simp] theorem issueErrorStatus_rq (kind : AccessKind) (x : Xfer) (c : Bool) (y : RqId) : (issueErrorStatus kind x c s).rq y = s.rq y := rfl
@[simp] theorem issueErrorStatus_cq (kind : AccessKind) (x : Xfer) (c : Bool) (y : CqId) : (issueErrorStatus kind x c s).cq y = s.cq y := rfl
@[simp] theorem issueErrorStatus_trigger (kind : AccessKind) (x : Xfer) (c : Bool) (y : TrigId) : (issueErrorStatus kind x c s).trigger y = s.trigger y := rfl
@[simp] theorem issueErrorStatus_txn (kind : AccessKind) (x : Xfer) (c : Bool) (y : SlotId) : (issueErrorStatus kind x c s).txn y = s.txn y := rfl

@[simp] theorem setInts_pending (i m : Byte) : (setInts i m s).pending = s.pending := rfl
@[simp] theorem setInts_link (i m : Byte) : (setInts i m s).link = s.link := rfl
@[simp] theorem setInts_timebase (i m : Byte) : (setInts i m s).timebase = s.timebase := rfl
@[simp] theorem setInts_accesses (i m : Byte) : (setInts i m s).accesses = s.accesses := rfl
@[simp] theorem setInts_mgmt (i m : Byte) : (setInts i m s).mgmt = s.mgmt := rfl
@[simp] theorem setInts_rqs (i m : Byte) : (setInts i m s).rqs = s.rqs := rfl
@[simp] theorem setInts_slots (i m : Byte) : (setInts i m s).slots = s.slots := rfl
@[simp] theorem setInts_fetch (i m : Byte) : (setInts i m s).fetch = s.fetch := rfl
@[simp] theorem setInts_ports (i m : Byte) : (setInts i m s).ports = s.ports := rfl
@[simp] theorem setInts_cqs (i m : Byte) : (setInts i m s).cqs = s.cqs := rfl
@[simp] theorem setInts_comp (i m : Byte) : (setInts i m s).comp = s.comp := rfl
@[simp] theorem setInts_rx (i m : Byte) : (setInts i m s).rx = s.rx := rfl
@[simp] theorem setInts_trig (i m : Byte) : (setInts i m s).trig = s.trig := rfl
@[simp] theorem setInts_port (i m : Byte) (y : PortId) : (setInts i m s).port y = s.port y := rfl
@[simp] theorem setInts_rq (i m : Byte) (y : RqId) : (setInts i m s).rq y = s.rq y := rfl
@[simp] theorem setInts_cq (i m : Byte) (y : CqId) : (setInts i m s).cq y = s.cq y := rfl
@[simp] theorem setInts_trigger (i m : Byte) (y : TrigId) : (setInts i m s).trigger y = s.trigger y := rfl
@[simp] theorem setInts_txn (i m : Byte) (y : SlotId) : (setInts i m s).txn y = s.txn y := rfl

@[simp] theorem raiseIsr_pending (i : Nat) : (raiseIsr i s).pending = s.pending := rfl
@[simp] theorem raiseIsr_link (i : Nat) : (raiseIsr i s).link = s.link := rfl
@[simp] theorem raiseIsr_timebase (i : Nat) : (raiseIsr i s).timebase = s.timebase := rfl
@[simp] theorem raiseIsr_accesses (i : Nat) : (raiseIsr i s).accesses = s.accesses := rfl
@[simp] theorem raiseIsr_mgmt (i : Nat) : (raiseIsr i s).mgmt = s.mgmt := rfl
@[simp] theorem raiseIsr_rqs (i : Nat) : (raiseIsr i s).rqs = s.rqs := rfl
@[simp] theorem raiseIsr_slots (i : Nat) : (raiseIsr i s).slots = s.slots := rfl
@[simp] theorem raiseIsr_fetch (i : Nat) : (raiseIsr i s).fetch = s.fetch := rfl
@[simp] theorem raiseIsr_ports (i : Nat) : (raiseIsr i s).ports = s.ports := rfl
@[simp] theorem raiseIsr_cqs (i : Nat) : (raiseIsr i s).cqs = s.cqs := rfl
@[simp] theorem raiseIsr_comp (i : Nat) : (raiseIsr i s).comp = s.comp := rfl
@[simp] theorem raiseIsr_rx (i : Nat) : (raiseIsr i s).rx = s.rx := rfl
@[simp] theorem raiseIsr_trig (i : Nat) : (raiseIsr i s).trig = s.trig := rfl
@[simp] theorem raiseIsr_port (i : Nat) (y : PortId) : (raiseIsr i s).port y = s.port y := rfl
@[simp] theorem raiseIsr_rq (i : Nat) (y : RqId) : (raiseIsr i s).rq y = s.rq y := rfl
@[simp] theorem raiseIsr_cq (i : Nat) (y : CqId) : (raiseIsr i s).cq y = s.cq y := rfl
@[simp] theorem raiseIsr_trigger (i : Nat) (y : TrigId) : (raiseIsr i s).trigger y = s.trigger y := rfl
@[simp] theorem raiseIsr_txn (i : Nat) (y : SlotId) : (raiseIsr i s).txn y = s.txn y := rfl

@[simp] theorem setCommandPhase_pending (ph : CmdPhase) : (setCommandPhase ph s).pending = s.pending := rfl
@[simp] theorem setCommandPhase_link (ph : CmdPhase) : (setCommandPhase ph s).link = s.link := rfl
@[simp] theorem setCommandPhase_ints (ph : CmdPhase) : (setCommandPhase ph s).ints = s.ints := rfl
@[simp] theorem setCommandPhase_timebase (ph : CmdPhase) : (setCommandPhase ph s).timebase = s.timebase := rfl
@[simp] theorem setCommandPhase_accesses (ph : CmdPhase) : (setCommandPhase ph s).accesses = s.accesses := rfl
@[simp] theorem setCommandPhase_rqs (ph : CmdPhase) : (setCommandPhase ph s).rqs = s.rqs := rfl
@[simp] theorem setCommandPhase_slots (ph : CmdPhase) : (setCommandPhase ph s).slots = s.slots := rfl
@[simp] theorem setCommandPhase_fetch (ph : CmdPhase) : (setCommandPhase ph s).fetch = s.fetch := rfl
@[simp] theorem setCommandPhase_ports (ph : CmdPhase) : (setCommandPhase ph s).ports = s.ports := rfl
@[simp] theorem setCommandPhase_cqs (ph : CmdPhase) : (setCommandPhase ph s).cqs = s.cqs := rfl
@[simp] theorem setCommandPhase_comp (ph : CmdPhase) : (setCommandPhase ph s).comp = s.comp := rfl
@[simp] theorem setCommandPhase_rx (ph : CmdPhase) : (setCommandPhase ph s).rx = s.rx := rfl
@[simp] theorem setCommandPhase_trig (ph : CmdPhase) : (setCommandPhase ph s).trig = s.trig := rfl
@[simp] theorem setCommandPhase_port (ph : CmdPhase) (y : PortId) : (setCommandPhase ph s).port y = s.port y := rfl
@[simp] theorem setCommandPhase_rq (ph : CmdPhase) (y : RqId) : (setCommandPhase ph s).rq y = s.rq y := rfl
@[simp] theorem setCommandPhase_cq (ph : CmdPhase) (y : CqId) : (setCommandPhase ph s).cq y = s.cq y := rfl
@[simp] theorem setCommandPhase_trigger (ph : CmdPhase) (y : TrigId) : (setCommandPhase ph s).trigger y = s.trigger y := rfl
@[simp] theorem setCommandPhase_txn (ph : CmdPhase) (y : SlotId) : (setCommandPhase ph s).txn y = s.txn y := rfl

@[simp] theorem modTxn_pending (k : SlotId) (f : Txn → Txn) : (s.modTxn k f).pending = s.pending := by
  unfold State.modTxn; split <;> rfl
@[simp] theorem modTxn_link (k : SlotId) (f : Txn → Txn) : (s.modTxn k f).link = s.link := by
  unfold State.modTxn; split <;> rfl
@[simp] theorem modTxn_ints (k : SlotId) (f : Txn → Txn) : (s.modTxn k f).ints = s.ints := by
  unfold State.modTxn; split <;> rfl
@[simp] theorem modTxn_timebase (k : SlotId) (f : Txn → Txn) : (s.modTxn k f).timebase = s.timebase := by
  unfold State.modTxn; split <;> rfl
@[simp] theorem modTxn_accesses (k : SlotId) (f : Txn → Txn) : (s.modTxn k f).accesses = s.accesses := by
  unfold State.modTxn; split <;> rfl
@[simp] theorem modTxn_mgmt (k : SlotId) (f : Txn → Txn) : (s.modTxn k f).mgmt = s.mgmt := by
  unfold State.modTxn; split <;> rfl
@[simp] theorem modTxn_rqs (k : SlotId) (f : Txn → Txn) : (s.modTxn k f).rqs = s.rqs := by
  unfold State.modTxn; split <;> rfl
@[simp] theorem modTxn_fetch (k : SlotId) (f : Txn → Txn) : (s.modTxn k f).fetch = s.fetch := by
  unfold State.modTxn; split <;> rfl
@[simp] theorem modTxn_ports (k : SlotId) (f : Txn → Txn) : (s.modTxn k f).ports = s.ports := by
  unfold State.modTxn; split <;> rfl
@[simp] theorem modTxn_cqs (k : SlotId) (f : Txn → Txn) : (s.modTxn k f).cqs = s.cqs := by
  unfold State.modTxn; split <;> rfl
@[simp] theorem modTxn_comp (k : SlotId) (f : Txn → Txn) : (s.modTxn k f).comp = s.comp := by
  unfold State.modTxn; split <;> rfl
@[simp] theorem modTxn_rx (k : SlotId) (f : Txn → Txn) : (s.modTxn k f).rx = s.rx := by
  unfold State.modTxn; split <;> rfl
@[simp] theorem modTxn_trig (k : SlotId) (f : Txn → Txn) : (s.modTxn k f).trig = s.trig := by
  unfold State.modTxn; split <;> rfl
@[simp] theorem modTxn_port (k : SlotId) (f : Txn → Txn) (x : PortId) :
    (s.modTxn k f).port x = s.port x := by
  unfold State.modTxn; split <;> rfl
@[simp] theorem modTxn_rq (k : SlotId) (f : Txn → Txn) (x : RqId) :
    (s.modTxn k f).rq x = s.rq x := by
  unfold State.modTxn; split <;> rfl
@[simp] theorem modTxn_cq (k : SlotId) (f : Txn → Txn) (x : CqId) :
    (s.modTxn k f).cq x = s.cq x := by
  unfold State.modTxn; split <;> rfl
@[simp] theorem modTxn_trigger (k : SlotId) (f : Txn → Txn) (x : TrigId) :
    (s.modTxn k f).trigger x = s.trigger x := by
  unfold State.modTxn; split <;> rfl

@[simp] theorem setLatch_pending (l : Latch) (r : Byte) : (setLatch l r s).pending = s.pending := by
  unfold setLatch; split <;> rfl
@[simp] theorem setLatch_link (l : Latch) (r : Byte) : (setLatch l r s).link = s.link := by
  unfold setLatch; split <;> rfl
@[simp] theorem setLatch_ints (l : Latch) (r : Byte) : (setLatch l r s).ints = s.ints := by
  unfold setLatch; split <;> rfl
@[simp] theorem setLatch_timebase (l : Latch) (r : Byte) : (setLatch l r s).timebase = s.timebase := by
  unfold setLatch; split <;> rfl
@[simp] theorem setLatch_accesses (l : Latch) (r : Byte) : (setLatch l r s).accesses = s.accesses := by
  unfold setLatch; split <;> rfl
@[simp] theorem setLatch_rqs (l : Latch) (r : Byte) : (setLatch l r s).rqs = s.rqs := by
  unfold setLatch; split <;> rfl
@[simp] theorem setLatch_slots (l : Latch) (r : Byte) : (setLatch l r s).slots = s.slots := by
  unfold setLatch; split <;> rfl
@[simp] theorem setLatch_fetch (l : Latch) (r : Byte) : (setLatch l r s).fetch = s.fetch := by
  unfold setLatch; split <;> rfl
@[simp] theorem setLatch_ports (l : Latch) (r : Byte) : (setLatch l r s).ports = s.ports := by
  unfold setLatch; split <;> rfl
@[simp] theorem setLatch_cqs (l : Latch) (r : Byte) : (setLatch l r s).cqs = s.cqs := by
  unfold setLatch; split <;> rfl
@[simp] theorem setLatch_comp (l : Latch) (r : Byte) : (setLatch l r s).comp = s.comp := by
  unfold setLatch; split <;> rfl
@[simp] theorem setLatch_rx (l : Latch) (r : Byte) : (setLatch l r s).rx = s.rx := by
  unfold setLatch; split <;> rfl
@[simp] theorem setLatch_trig (l : Latch) (r : Byte) : (setLatch l r s).trig = s.trig := by
  unfold setLatch; split <;> rfl
@[simp] theorem setLatch_port (l : Latch) (r : Byte) (x : PortId) : (setLatch l r s).port x = s.port x := by
  unfold setLatch; split <;> rfl
@[simp] theorem setLatch_rq (l : Latch) (r : Byte) (x : RqId) : (setLatch l r s).rq x = s.rq x := by
  unfold setLatch; split <;> rfl
@[simp] theorem setLatch_cq (l : Latch) (r : Byte) (x : CqId) : (setLatch l r s).cq x = s.cq x := by
  unfold setLatch; split <;> rfl
@[simp] theorem setLatch_trigger (l : Latch) (r : Byte) (x : TrigId) : (setLatch l r s).trigger x = s.trigger x := by
  unfold setLatch; split <;> rfl
@[simp] theorem setLatch_txn (l : Latch) (r : Byte) (x : SlotId) : (setLatch l r s).txn x = s.txn x := by
  unfold setLatch; split <;> rfl
@[simp] theorem with_link_port (v : Link) (y : PortId) :
    State.port { s with link := v } y = s.port y := rfl
@[simp] theorem with_link_rq (v : Link) (y : RqId) :
    State.rq { s with link := v } y = s.rq y := rfl
@[simp] theorem with_link_cq (v : Link) (y : CqId) :
    State.cq { s with link := v } y = s.cq y := rfl
@[simp] theorem with_link_trigger (v : Link) (y : TrigId) :
    State.trigger { s with link := v } y = s.trigger y := rfl
@[simp] theorem with_link_txn (v : Link) (y : SlotId) :
    State.txn { s with link := v } y = s.txn y := rfl
@[simp] theorem with_ints_port (v : Ints) (y : PortId) :
    State.port { s with ints := v } y = s.port y := rfl
@[simp] theorem with_ints_rq (v : Ints) (y : RqId) :
    State.rq { s with ints := v } y = s.rq y := rfl
@[simp] theorem with_ints_cq (v : Ints) (y : CqId) :
    State.cq { s with ints := v } y = s.cq y := rfl
@[simp] theorem with_ints_trigger (v : Ints) (y : TrigId) :
    State.trigger { s with ints := v } y = s.trigger y := rfl
@[simp] theorem with_ints_txn (v : Ints) (y : SlotId) :
    State.txn { s with ints := v } y = s.txn y := rfl
@[simp] theorem with_timebase_port (v : Word) (y : PortId) :
    State.port { s with timebase := v } y = s.port y := rfl
@[simp] theorem with_timebase_rq (v : Word) (y : RqId) :
    State.rq { s with timebase := v } y = s.rq y := rfl
@[simp] theorem with_timebase_cq (v : Word) (y : CqId) :
    State.cq { s with timebase := v } y = s.cq y := rfl
@[simp] theorem with_timebase_trigger (v : Word) (y : TrigId) :
    State.trigger { s with timebase := v } y = s.trigger y := rfl
@[simp] theorem with_timebase_txn (v : Word) (y : SlotId) :
    State.txn { s with timebase := v } y = s.txn y := rfl
@[simp] theorem with_accesses_port (v : List Access) (y : PortId) :
    State.port { s with accesses := v } y = s.port y := rfl
@[simp] theorem with_accesses_rq (v : List Access) (y : RqId) :
    State.rq { s with accesses := v } y = s.rq y := rfl
@[simp] theorem with_accesses_cq (v : List Access) (y : CqId) :
    State.cq { s with accesses := v } y = s.cq y := rfl
@[simp] theorem with_accesses_trigger (v : List Access) (y : TrigId) :
    State.trigger { s with accesses := v } y = s.trigger y := rfl
@[simp] theorem with_accesses_txn (v : List Access) (y : SlotId) :
    State.txn { s with accesses := v } y = s.txn y := rfl
@[simp] theorem with_mgmt_port (v : Mgmt) (y : PortId) :
    State.port { s with mgmt := v } y = s.port y := rfl
@[simp] theorem with_mgmt_rq (v : Mgmt) (y : RqId) :
    State.rq { s with mgmt := v } y = s.rq y := rfl
@[simp] theorem with_mgmt_cq (v : Mgmt) (y : CqId) :
    State.cq { s with mgmt := v } y = s.cq y := rfl
@[simp] theorem with_mgmt_trigger (v : Mgmt) (y : TrigId) :
    State.trigger { s with mgmt := v } y = s.trigger y := rfl
@[simp] theorem with_mgmt_txn (v : Mgmt) (y : SlotId) :
    State.txn { s with mgmt := v } y = s.txn y := rfl
@[simp] theorem with_fetch_port (v : FetchUnit) (y : PortId) :
    State.port { s with fetch := v } y = s.port y := rfl
@[simp] theorem with_fetch_rq (v : FetchUnit) (y : RqId) :
    State.rq { s with fetch := v } y = s.rq y := rfl
@[simp] theorem with_fetch_cq (v : FetchUnit) (y : CqId) :
    State.cq { s with fetch := v } y = s.cq y := rfl
@[simp] theorem with_fetch_trigger (v : FetchUnit) (y : TrigId) :
    State.trigger { s with fetch := v } y = s.trigger y := rfl
@[simp] theorem with_fetch_txn (v : FetchUnit) (y : SlotId) :
    State.txn { s with fetch := v } y = s.txn y := rfl
@[simp] theorem with_comp_port (v : Completion) (y : PortId) :
    State.port { s with comp := v } y = s.port y := rfl
@[simp] theorem with_comp_rq (v : Completion) (y : RqId) :
    State.rq { s with comp := v } y = s.rq y := rfl
@[simp] theorem with_comp_cq (v : Completion) (y : CqId) :
    State.cq { s with comp := v } y = s.cq y := rfl
@[simp] theorem with_comp_trigger (v : Completion) (y : TrigId) :
    State.trigger { s with comp := v } y = s.trigger y := rfl
@[simp] theorem with_comp_txn (v : Completion) (y : SlotId) :
    State.txn { s with comp := v } y = s.txn y := rfl
@[simp] theorem with_rx_port (v : RxRing) (y : PortId) :
    State.port { s with rx := v } y = s.port y := rfl
@[simp] theorem with_rx_rq (v : RxRing) (y : RqId) :
    State.rq { s with rx := v } y = s.rq y := rfl
@[simp] theorem with_rx_cq (v : RxRing) (y : CqId) :
    State.cq { s with rx := v } y = s.cq y := rfl
@[simp] theorem with_rx_trigger (v : RxRing) (y : TrigId) :
    State.trigger { s with rx := v } y = s.trigger y := rfl
@[simp] theorem with_rx_txn (v : RxRing) (y : SlotId) :
    State.txn { s with rx := v } y = s.txn y := rfl
@[simp] theorem with_pending_port (v : List Instr) (y : PortId) :
    State.port { s with pending := v } y = s.port y := rfl
@[simp] theorem with_pending_rq (v : List Instr) (y : RqId) :
    State.rq { s with pending := v } y = s.rq y := rfl
@[simp] theorem with_pending_cq (v : List Instr) (y : CqId) :
    State.cq { s with pending := v } y = s.cq y := rfl
@[simp] theorem with_pending_trigger (v : List Instr) (y : TrigId) :
    State.trigger { s with pending := v } y = s.trigger y := rfl
@[simp] theorem with_pending_txn (v : List Instr) (y : SlotId) :
    State.txn { s with pending := v } y = s.txn y := rfl

@[simp] theorem modMgmt_mgmt (f : Mgmt → Mgmt) : (s.modMgmt f).mgmt = f s.mgmt := rfl
@[simp] theorem raiseIsr_isr (i : Nat) :
    (raiseIsr i s).ints.isr = s.ints.isr ||| BitVec.twoPow 8 i := rfl
@[simp] theorem setInts_isr (i m : Byte) : (setInts i m s).ints.isr = i := rfl
@[simp] theorem setInts_imr (i m : Byte) : (setInts i m s).ints.imr = m := rfl
@[simp] theorem raiseIsr_imr (i : Nat) : (raiseIsr i s).ints.imr = s.ints.imr := rfl

/-- The access an issue puts in flight, behind those already there. -/
theorem issue_accesses (kind : AccessKind) (x : Xfer) (c : Bool) :
    (issue kind x c s).accesses =
      s.accesses ++ [⟨kind, x, s.timebase, c, !s.link.busMaster, false⟩] := rfl
theorem issueErrorStatus_accesses (kind : AccessKind) (x : Xfer) (b : Bool) :
    (issueErrorStatus kind x b s).accesses =
      s.accesses ++ [⟨kind, x, s.timebase, false, !s.link.busMaster, b⟩] := rfl

end Sys2Proof.Machine
end

