-- ==== Sys2Proof/Laws/Inside.lean ====
section
/-! SUPPORT. What the shared operations leave alone, said once for each: an operation stays inside the part
when it changes no register of the host link but ISR, sets ISR bits only that have a cause, leaves the
queue of commands and the timebase, and keeps the bounds of the lists, the place of the in-service
transactions and the kinds of the slots. -/

namespace Sys2Proof.Machine

/-- What every operation below the controller keeps. -/
structure Inside (s t : State) : Prop where
  pending : t.pending = s.pending
  link : t.link = s.link
  timebase : t.timebase = s.timebase
  imr : t.ints.imr = s.ints.imr
  isr : ∀ i, s.ints.isr.getLsbD i = true → t.ints.isr.getLsbD i = true
  isr5 : t.ints.isr.getLsbD 5 = s.ints.isr.getLsbD 5
  isr6 : t.ints.isr.getLsbD 6 = s.ints.isr.getLsbD 6
  sent : t.ints.sent =
    s.ints.sent + if !s.ints.request && t.ints.request && s.link.busMaster then 1 else 0
  holding : HoldingBounded s → HoldingBounded t
  lists : ListsBounded s → ListsBounded t
  served : ServedIsFirst s → ServedIsFirst t
  kinds : SlotKinds s → SlotKinds t

@[simp] theorem Inside.same {s : State} : Inside s s :=
  ⟨rfl, rfl, rfl, rfl, fun _ h => h, rfl, rfl, by cases s.ints.request <;> rfl, id, id, id, id⟩

/-- The interrupt request is made by some set ISR bit whose IMR bit is clear (R119). -/
theorem request_iff (i : Ints) :
    i.request = true ↔ ∃ j, i.isr.getLsbD j = true ∧ i.imr.getLsbD j = false := by
  unfold Ints.request
  rw [bne_iff_ne]
  constructor
  · intro h
    by_contra c
    simp only [not_exists, not_and, Bool.not_eq_false] at c
    refine h (BitVec.eq_of_getLsbD_eq fun j hj => ?_)
    have := c j
    rw [BitVec.getLsbD_and, BitVec.getLsbD_not]
    cases e : i.isr.getLsbD j
    · simp
    · simp [this e]
  · rintro ⟨j, h₁, h₂⟩ c
    have := congrArg (fun x => x.getLsbD j) c
    have hj : j < 8 := by
      by_contra g
      rw [BitVec.getLsbD_of_ge _ _ (by omega)] at h₁; cases h₁
    rw [BitVec.getLsbD_and, BitVec.getLsbD_not, h₁, h₂] at this
    simp [hj] at this

/-- Setting more ISR bits does not end the request. -/
theorem Inside.request {s t : State} (h : Inside s t) (r : s.ints.request = true) :
    t.ints.request = true := by
  obtain ⟨j, h₁, h₂⟩ := (request_iff _).mp r
  exact (request_iff _).mpr ⟨j, h.isr j h₁, by rw [h.imr]; exact h₂⟩

theorem Inside.trans {r s t : State} (h : Inside r s) (g : Inside s t) : Inside r t where
  pending := g.pending.trans h.pending
  link := g.link.trans h.link
  timebase := g.timebase.trans h.timebase
  imr := g.imr.trans h.imr
  isr i := g.isr i ∘ h.isr i
  isr5 := g.isr5.trans h.isr5
  isr6 := g.isr6.trans h.isr6
  sent := by
    have a := h.sent
    have b := g.sent
    have c := h.request
    have d := g.request
    rw [b, a, h.link]
    cases e : r.ints.request <;> cases f : s.ints.request <;> cases f' : t.ints.request <;>
      simp_all
  holding := g.holding ∘ h.holding
  lists := g.lists ∘ h.lists
  served := g.served ∘ h.served
  kinds := g.kinds ∘ h.kinds

variable {r s : State}

/-! ### The updates -/

/-- A port's list has not grown, and its in-service transaction is first if it was. -/
def Port.keepsList (P Q : Port) : Prop :=
  Q.list.length ≤ P.list.length ∧ (P.servesFirst → Q.servesFirst)

theorem Port.keepsList_self {P : Port} : P.keepsList P := ⟨le_rfl, id⟩

/-- An update that touches neither the registers nor the lists, the slots and the turn. -/
theorem Inside.of_eq {t : State} (h : Inside r s) (hp : t.pending = s.pending) (hl : t.link = s.link)
    (hb : t.timebase = s.timebase) (hi : t.ints = s.ints)
    (hh : t.comp.holding.length ≤ s.comp.holding.length)
    (hL : ∀ p, Port.keepsList (s.port p) (t.port p))
    (hS : ∀ k u, t.txn k = some u → ∃ v, s.txn k = some v ∧ u.origin = v.origin)
    (hT : ∀ tn, t.fetch.turn = some tn → s.fetch.turn = some tn) : Inside r t :=
  h.trans
    { pending := hp, link := hl, timebase := hb, imr := by rw [hi], isr := by rw [hi]; exact fun _ h => h,
      isr5 := by rw [hi], isr6 := by rw [hi],
      sent := by rw [hi]; cases s.ints.request <;> rfl,
      holding := fun g => le_trans hh g
      lists := fun g p => le_trans (hL p).1 (g p)
      served := fun g p => (hL p).2 (g p)
      kinds := fun g => ⟨fun k u hu => by
        obtain ⟨v, hv, e⟩ := hS k u hu
        rw [e]; exact g.1 k v hv, fun tn htn => g.2 tn (hT tn htn)⟩ }

theorem same_txn {s t : State} (h : t.slots = s.slots) (k : SlotId) (u : Txn) (hu : t.txn k = some u) :
    ∃ v, s.txn k = some v ∧ u.origin = v.origin :=
  ⟨u, by rw [← hu]; unfold State.txn; rw [h], rfl⟩

theorem inside_modPort_of {p : PortId} {f : Port → Port} (h : Inside r s)
    (hf : (s.port p).keepsList (f (s.port p))) : Inside r (s.modPort p f) :=
  h.of_eq rfl rfl rfl rfl le_rfl
    (fun q => by
      rw [port_modPort]; split
      · rename_i e; subst e; exact hf
      · exact Port.keepsList_self)
    (fun _ u hu => ⟨u, hu, rfl⟩) (fun _ => id)

@[simp] theorem inside_modPort {p : PortId} {f : Port → Port} (h : Inside r s)
    (hl : ∀ P, (f P).list = P.list) (hs : ∀ P, (f P).inService = P.inService) :
    Inside r (s.modPort p f) :=
  inside_modPort_of h ⟨by rw [hl], fun g k hk => by rw [hl]; exact g k (by rw [← hs]; exact hk)⟩

@[simp] theorem inside_modTarget {p : PortId} {f : Target → Target} (h : Inside r s) :
    Inside r (s.modTarget p f) := inside_modPort h (fun _ => rfl) fun _ => rfl

@[simp] theorem inside_modStats {p : PortId} {f : Stats → Stats} (h : Inside r s) :
    Inside r (s.modStats p f) := inside_modPort h (fun _ => rfl) fun _ => rfl

@[simp] theorem inside_rqs {v : Vector RqCtx 8} (h : Inside r s) : Inside r { s with rqs := v } :=
  h.of_eq rfl rfl rfl rfl le_rfl (fun _ => Port.keepsList_self) (fun _ u hu => ⟨u, hu, rfl⟩) (fun _ => id)
@[simp] theorem inside_cqs {v : Vector CqCtx 4} (h : Inside r s) : Inside r { s with cqs := v } :=
  h.of_eq rfl rfl rfl rfl le_rfl (fun _ => Port.keepsList_self) (fun _ u hu => ⟨u, hu, rfl⟩) (fun _ => id)
@[simp] theorem inside_trig {v : TrigUnit} (h : Inside r s) : Inside r { s with trig := v } :=
  h.of_eq rfl rfl rfl rfl le_rfl (fun _ => Port.keepsList_self) (fun _ u hu => ⟨u, hu, rfl⟩) (fun _ => id)
@[simp] theorem inside_mgmt {v : Mgmt} (h : Inside r s) : Inside r { s with mgmt := v } :=
  h.of_eq rfl rfl rfl rfl le_rfl (fun _ => Port.keepsList_self) (fun _ u hu => ⟨u, hu, rfl⟩) (fun _ => id)
@[simp] theorem inside_rx {v : RxRing} (h : Inside r s) : Inside r { s with rx := v } :=
  h.of_eq rfl rfl rfl rfl le_rfl (fun _ => Port.keepsList_self) (fun _ u hu => ⟨u, hu, rfl⟩) (fun _ => id)
@[simp] theorem inside_accesses {v : List Access} (h : Inside r s) :
    Inside r { s with accesses := v } :=
  h.of_eq rfl rfl rfl rfl le_rfl (fun _ => Port.keepsList_self) (fun _ u hu => ⟨u, hu, rfl⟩) (fun _ => id)
@[simp] theorem inside_comp {v : Completion} (h : Inside r s)
    (hv : v.holding.length ≤ s.comp.holding.length) : Inside r { s with comp := v } :=
  h.of_eq rfl rfl rfl rfl hv (fun _ => Port.keepsList_self) (fun _ u hu => ⟨u, hu, rfl⟩) (fun _ => id)
@[simp] theorem inside_fetch {v : FetchUnit} (h : Inside r s)
    (hv : ∀ tn, v.turn = some tn → s.fetch.turn = some tn) : Inside r { s with fetch := v } :=
  h.of_eq rfl rfl rfl rfl le_rfl (fun _ => Port.keepsList_self) (fun _ u hu => ⟨u, hu, rfl⟩) hv

@[simp] theorem inside_modRq {q : RqId} {f : RqCtx → RqCtx} (h : Inside r s) :
    Inside r (s.modRq q f) := inside_rqs h
@[simp] theorem inside_modCq {n : CqId} {f : CqCtx → CqCtx} (h : Inside r s) :
    Inside r (s.modCq n f) := inside_cqs h
@[simp] theorem inside_modTrigger {t : TrigId} {f : Trigger → Trigger} (h : Inside r s) :
    Inside r (s.modTrigger t f) := inside_trig h
@[simp] theorem inside_modMgmt {f : Mgmt → Mgmt} (h : Inside r s) : Inside r (s.modMgmt f) :=
  inside_mgmt h
@[simp] theorem inside_issue {k : AccessKind} {x : Xfer} {c : Bool} (h : Inside r s) :
    Inside r (issue k x c s) := inside_accesses h
@[simp] theorem inside_issueErrorStatus {k : AccessKind} {x : Xfer} {c : Bool} (h : Inside r s) :
    Inside r (issueErrorStatus k x c s) := inside_accesses h
@[simp] theorem inside_setLatch {l : Latch} {b : Byte} (h : Inside r s) :
    Inside r (setLatch l b s) := by
  unfold setLatch; split
  · exact h
  · exact inside_mgmt h

/-- A slot takes the transaction it may hold, or none. -/
theorem inside_setSlot {k : SlotId} {x : Slot} (h : Inside r s)
    (hx : ∀ t, x = .txn t → SlotKinds s → t.origin.isRequest = decide (k.val < Config.requestSlots)) :
    Inside r (s.setSlot k x) :=
  h.trans
    { pending := rfl, link := rfl, timebase := rfl, imr := rfl, isr := fun _ => id, isr5 := rfl,
      isr6 := rfl, sent := (Inside.same (s := s)).sent, holding := id, lists := id,
      served := id, kinds := fun g => ⟨fun j u hu => by
        rw [txn_setSlot] at hu
        split at hu
        · rename_i e; subst e
          split at hu
          · cases hu; exact hx _ rfl g
          · cases hu
        · exact g.1 j u hu, g.2⟩ }

@[simp] theorem inside_free {k : SlotId} (h : Inside r s) : Inside r (s.setSlot k .free) :=
  inside_setSlot h fun _ e => by cases e
@[simp] theorem inside_reserved {k : SlotId} (h : Inside r s) : Inside r (s.setSlot k .reserved) :=
  inside_setSlot h fun _ e => by cases e

@[simp] theorem inside_modTxn {k : SlotId} {f : Txn → Txn} (h : Inside r s)
    (hf : ∀ t, (f t).origin = t.origin) : Inside r (s.modTxn k f) := by
  cases e : s.txn k with
  | none => rw [modTxn_of_none e]; exact h
  | some t =>
    rw [modTxn_of_txn e]
    refine inside_setSlot h fun u hu g => ?_
    cases hu
    rw [hf]; exact g.1 k t e

/-- ISR bit `i` is raised by one of the six causes (R118). -/
@[simp] theorem inside_raiseIsr {i : Nat} (h : Inside r s) (hi : i ≠ 5 ∧ i ≠ 6) :
    Inside r (raiseIsr i s) :=
  h.trans
    { pending := rfl, link := rfl, timebase := rfl, imr := rfl,
      isr := fun j hj => by simp [hj],
      isr5 := by simp [Ne.symm hi.1],
      isr6 := by simp [Ne.symm hi.2],
      sent := by
        have add_if : ∀ (b : Bool) (n : Nat), (if b then n + 1 else n) = n + if b then 1 else 0 := by
          intro b n; cases b <;> rfl
        exact add_if (!s.ints.request && (raiseIsr i s).ints.request && s.link.busMaster) _,
      holding := id, lists := id, served := id, kinds := id }

/-- A fold of operations that stay inside stays inside. -/
theorem inside_foldl {α : Type} {f : State → α → State} (hf : ∀ r s a, Inside r s → Inside r (f s a))
    (l : List α) (h : Inside r s) : Inside r (l.foldl f s) := by
  induction l generalizing s with
  | nil => exact h
  | cons a l ih => exact ih (hf _ _ _ h)

/-! ### Ops -/

@[simp] theorem inside_setCommandPhase {ph : CmdPhase} (h : Inside r s) :
    Inside r (setCommandPhase ph s) := inside_mgmt h
@[simp] theorem inside_completeCommand {st : Status} {a b : Word} (h : Inside r s) :
    Inside r (completeCommand st a b s) := by unfold completeCommand; split <;> simp (maxDischargeDepth := 40) [h]
@[simp] theorem inside_completeIf {ph : CmdPhase} {st : Status} {a : Word} (h : Inside r s) :
    Inside r (completeIf ph st a s) := by unfold completeIf; split <;> simp (maxDischargeDepth := 40) [h]
@[simp] theorem inside_writeRqStatus {q : RqId} {c : Bool} (h : Inside r s) :
    Inside r (writeRqStatus q c s) := inside_issue h
@[simp] theorem inside_writeCqStatus {n : CqId} {w : CqStatusFor} {c : Bool} (h : Inside r s) :
    Inside r (writeCqStatus n w c s) := inside_issue h
@[simp] theorem inside_writeRxStatus {c : Bool} (h : Inside r s) : Inside r (writeRxStatus c s) :=
  inside_issue h
@[simp] theorem inside_writeControllerStatus (h : Inside r s) : Inside r (writeControllerStatus s) :=
  inside_issue h
@[simp] theorem inside_writeMqStatus {b : Bool} (h : Inside r s) : Inside r (writeMqStatus b s) :=
  inside_issue h
@[simp] theorem inside_writeMcqStatus {b : Bool} (h : Inside r s) : Inside r (writeMcqStatus b s) :=
  inside_issue h

/-! ### Pool -/

theorem length_insertAt (l : List SlotId) (i : Nat) (k : SlotId) :
    (insertAt l i k).length = l.length + 1 := by simp [insertAt]; omega

/-- An insertion behind the first of a list leaves it first. -/
theorem head_insertAt {l : List SlotId} {i : Nat} {k j : SlotId} (hi : l ≠ [] → 0 < i)
    (h : l.head? = some j) : (insertAt l i k).head? = some j := by
  cases l with
  | nil => cases h
  | cons a l =>
    obtain ⟨n, rfl⟩ : ∃ n, i = n + 1 := ⟨i - 1, by have := hi (by simp); omega⟩
    simpa [insertAt] using h

theorem behindLast_pos {α : Type} {f : α → Bool} {l : List α} {i : Nat}
    (h : behindLast f l = some i) : 0 < i := by
  induction l generalizing i with
  | nil => cases h
  | cons a l ih =>
    unfold behindLast at h
    split at h
    · cases h; omega
    · split at h <;> cases h; omega

/-- With a transaction in service the place of an insertion is not the first (R45). -/
theorem insertIndex_pos {p : PortId} {t : Txn} {j : SlotId} (h : (s.port p).inService = some j)
    (hl : (s.port p).list ≠ []) : 0 < s.insertIndex p t := by
  unfold State.insertIndex
  split
  · split
    · rename_i e; exact behindLast_pos e
    · simp [h]
  · exact List.length_pos_of_ne_nil hl

/-- An insertion into a list with room. -/
theorem inside_insertTxn {k : SlotId} {t : Txn} (h : Inside r s) (room : s.listFull t.port = false)
    (hk : SlotKinds s → t.origin.isRequest = decide (k.val < Config.requestSlots)) :
    Inside r (insertTxn k t s) := by
  refine inside_setSlot (h.trans ?_) fun u hu g => by cases hu; exact hk g
  exact
    { pending := rfl, link := rfl, timebase := rfl, imr := rfl, isr := fun _ => id, isr5 := rfl,
      isr6 := rfl, sent := (Inside.same (s := s)).sent, holding := id, kinds := id,
      lists := fun g q => by
        rw [port_modPort]
        split
        · rename_i e; subst e
          simp only [length_insertAt]
          simp [State.listFull] at room; omega
        · exact g q
      served := fun g q => by
        rw [port_modPort]
        split
        · rename_i e; subst e
          exact fun j hj => head_insertAt (insertIndex_pos hj) (g t.port j hj)
        · exact g q }

/-- What a queue's hold holds is the transaction of a slot. -/
theorem held_txn {q : RqId} {k : SlotId} {t : Txn} (e : s.held q = some (k, t)) :
    s.txn k = some t := by
  unfold State.held at e
  split at e
  · rename_i j _
    cases g : s.txn j with
    | none => rw [g] at e; cases e
    | some u => rw [g] at e; cases e; exact g
  · cases e

@[simp] theorem inside_examineHold {q : RqId} (h : Inside r s) : Inside r (examineHold q s) := by
  unfold examineHold
  split
  · rename_i k t e
    split
    · rename_i c
      simp only [Bool.and_eq_true, Bool.not_eq_true'] at c
      unfold placeHeld
      exact inside_fetch
        (inside_modRq (inside_insertTxn h c.2 fun g => g.1 k t (held_txn e))) fun _ => id
    · exact h
  · exact h

@[simp] theorem inside_offerPlace {p : PortId} (h : Inside r s) : Inside r (offerPlace p s) := by
  unfold offerPlace; split <;> simp (maxDischargeDepth := 40) [h]
@[simp] theorem inside_rqEnterError {q : RqId} {x : RqReason} (h : Inside r s) :
    Inside r (rqEnterError q x s) := by unfold rqEnterError; split <;> simp (maxDischargeDepth := 40) [h]
@[simp] theorem inside_deletionEnd {q : RqId} (h : Inside r s) : Inside r (deletionEnd q s) := by
  simp only [deletionEnd]; (repeat' split) <;> simp (maxDischargeDepth := 40) [h]
@[simp] theorem inside_finalize {k : SlotId} (h : Inside r s) : Inside r (finalize k s) := by
  simp only [finalize]; (repeat' split) <;> simp (maxDischargeDepth := 40) [h]
@[simp] theorem inside_markTxn {k : SlotId} {x : Result} (h : Inside r s) :
    Inside r (markTxn k x s) := inside_modTxn h fun t => by split <;> rfl

/-! ### Target units -/

@[simp] theorem inside_tieTimeouts {p : PortId} (h : Inside r s) : Inside r (tieTimeouts p s) := by
  simp only [tieTimeouts]; simp (maxDischargeDepth := 40) [h]

@[simp] theorem inside_touch {p : PortId} (h : Inside r s) : Inside r (touch p s) := by
  simp only [touch]; simp (maxDischargeDepth := 40) [h]

@[simp] theorem inside_releaseLines {p : PortId} (h : Inside r s) : Inside r (releaseLines p s) := by
  simp only [releaseLines]; simp (maxDischargeDepth := 40) [h]

@[simp] theorem inside_giveAck {p : PortId} {b : Bool} (h : Inside r s) : Inside r (giveAck p b s) := by
  simp only [giveAck]; simp (maxDischargeDepth := 40) [h]

@[simp] theorem inside_startMessage {p : PortId} {w : Addressed} {a : BitVec 7} {b : RxBuffer} (h : Inside r s) : Inside r (startMessage p w a b s) := by
  simp only [startMessage]; simp (maxDischargeDepth := 40) [h]

@[simp] theorem inside_refuse {p : PortId} (h : Inside r s) : Inside r (refuse p s) := by
  simp only [refuse]; simp (maxDischargeDepth := 40) [h]

@[simp] theorem inside_refuseMessage {p : PortId} (h : Inside r s) : Inside r (refuseMessage p s) := by
  simp only [refuseMessage]; (repeat' split) <;> simp (maxDischargeDepth := 40) [h]

@[simp] theorem inside_decideMessage {p : PortId} {w : Addressed} {a : BitVec 7} {x : Word} (h : Inside r s) : Inside r (decideMessage p w a x s) := by
  simp only [decideMessage]; (repeat' split) <;> simp (maxDischargeDepth := 40) [h]

@[simp] theorem inside_decideAgain {p : PortId} (h : Inside r s) : Inside r (decideAgain p s) := by
  simp only [decideAgain]; (repeat' split) <;> simp (maxDischargeDepth := 40) [h]

@[simp] theorem inside_decideAll (h : Inside r s) : Inside r (decideAll s) :=
  inside_foldl (fun _ _ _ => inside_decideAgain) _ h

@[simp] theorem inside_takePart {p : PortId} {x : Transfer} (h : Inside r s) : Inside r (takePart p x s) := by
  simp only [takePart]; simp (maxDischargeDepth := 40) [h]

@[simp] theorem inside_decideReply {p : PortId} {o : OwnId} (h : Inside r s) : Inside r (decideReply p o s) := by
  simp only [decideReply]; (repeat' split) <;> simp (maxDischargeDepth := 40) [h]

@[simp] theorem inside_decideMatch {p : PortId} {w : Addressed} {b : Byte} (h : Inside r s) : Inside r (decideMatch p w b s) := by
  simp only [decideMatch]; (repeat' split) <;> simp (maxDischargeDepth := 40) [h]

@[simp] theorem inside_judge {p : PortId} {b : Byte} (h : Inside r s) : Inside r (judge p b s) := by
  simp only [judge]; (repeat' split) <;> simp (maxDischargeDepth := 40) [h]

@[simp] theorem inside_applyImage {p : PortId} {o : OwnId} {n : Nat} {l : List Byte} (h : Inside r s) : Inside r (applyImage p o n l s) := by
  simp only [applyImage]; simp (maxDischargeDepth := 40) [h]

@[simp] theorem inside_applyReply {p : PortId} {o : OwnId} {l : List Byte} (h : Inside r s) : Inside r (applyReply p o l s) := by
  simp only [applyReply]; simp (maxDischargeDepth := 40) [h]

@[simp] theorem inside_applyHeld {p : PortId} (h : Inside r s) : Inside r (applyHeld p s) := by
  simp only [applyHeld]; (repeat' split) <;> simp (maxDischargeDepth := 40) [h]

@[simp] theorem inside_endReply {p : PortId} {o : OwnId} {n : Nat} (h : Inside r s) : Inside r (endReply p o n s) := by
  simp only [endReply]; (repeat' split) <;> simp (maxDischargeDepth := 40) [h]

/-! ### Offers -/

@[simp] theorem inside_discard {e : HoldEntry} (h : Inside r s) : Inside r (discard e s) := by
  simp only [discard]; (repeat' split) <;> simp (maxDischargeDepth := 40) [h]

theorem inside_tryOffer {e : HoldEntry} {t : State} (h : Inside r s) (o : tryOffer e s = some t) :
    Inside r t := by
  unfold tryOffer at o
  split at o
  · split at o
    · rename_i room
      cases o
      refine h.trans ⟨rfl, rfl, rfl, rfl, fun _ => id, rfl, rfl, (Inside.same (s := s)).sent,
        fun _ => ?_, id, id, id⟩
      simp [HoldingBounded, Config.holdingCapacity] at room ⊢; omega
    · cases o
  · cases o; exact inside_discard h

@[simp] theorem inside_targetAccepted {p : PortId} {b : Bool} (h : Inside r s) : Inside r (targetAccepted p b s) := by
  simp only [targetAccepted]; (repeat' split) <;> simp (maxDischargeDepth := 40) [h]

@[simp] theorem inside_offerTargetN {p : PortId} {n : Nat} (h : Inside r s) :
    Inside r (offerTargetN p n s) := by
  induction n generalizing s with
  | zero => exact h
  | succ n ih =>
    unfold offerTargetN
    split
    · exact h
    · split
      · rename_i e; exact ih (inside_targetAccepted (inside_tryOffer h e))
      · exact h

@[simp] theorem inside_offerTarget {p : PortId} (h : Inside r s) : Inside r (offerTarget p s) := by
  simp only [offerTarget]; simp (maxDischargeDepth := 40) [h]

@[simp] theorem inside_pushRecord {p : PortId} {x : TargetRecord} (h : Inside r s) : Inside r (pushRecord p x s) := by
  simp only [pushRecord]; split <;> simp (maxDischargeDepth := 40) [h]

@[simp] theorem inside_giveBack {p : PortId} {b : RxBuffer} (h : Inside r s) : Inside r (giveBack p b s) := by
  simp only [giveBack]; simp (maxDischargeDepth := 40) [h]

@[simp] theorem inside_drainEnded {p : PortId} {b : Bool} (h : Inside r s) : Inside r (drainEnded p b s) := by
  simp only [drainEnded]; (repeat' split) <;> simp (maxDischargeDepth := 40) [h]

@[simp] theorem inside_endMessage {p : PortId} {b c : Bool} (h : Inside r s) : Inside r (endMessage p b c s) := by
  simp only [endMessage]; (repeat' split) <;> simp (maxDischargeDepth := 40) [h]

@[simp] theorem inside_endTransfer {p : PortId} {b c : Bool} (h : Inside r s) : Inside r (endTransfer p b c s) := by
  simp only [endTransfer]; (repeat' split) <;> simp (maxDischargeDepth := 40) [h]

@[simp] theorem inside_enterOff {p : PortId} (h : Inside r s) : Inside r (enterOff p s) := by
  have g : Inside r (s.modPort p Port.switchedOff) := inside_modPort h (fun _ => rfl) fun _ => rfl
  simp only [enterOff]; split <;> simp (maxDischargeDepth := 40) [g]

@[simp] theorem inside_tellDisable {p : PortId} (h : Inside r s) : Inside r (tellDisable p s) := by
  simp only [tellDisable]; (repeat' split) <;> simp (maxDischargeDepth := 40) [h]

@[simp] theorem inside_leaveList {p : PortId} (h : Inside r s) : Inside r (leaveList p s) := by
  have g : Inside r (s.modPort p fun P =>
      { P with
        list := P.list.tail, inService := none, pendingResult := none,
        stats := { P.stats with completed := P.stats.completed + 1 } }) :=
    inside_modPort_of h ⟨by simp, nofun⟩
  unfold leaveList
  dsimp only
  split
  · exact inside_tellDisable (inside_offerPlace g)
  · exact inside_offerPlace g

@[simp] theorem inside_serviceAccepted {p : PortId} {k : SlotId} (h : Inside r s) : Inside r (serviceAccepted p k s) :=
  inside_leaveList (inside_modTxn h fun _ => rfl)

@[simp] theorem inside_offerService {p : PortId} (h : Inside r s) : Inside r (offerService p s) := by
  unfold offerService
  split
  · split
    · rename_i e; exact inside_serviceAccepted (inside_tryOffer h e)
    · exact h
  · exact h

@[simp] theorem inside_post {p : PortId} {k : SlotId} (h : Inside r s) : Inside r (post p k s) := by
  simp only [post]; simp (maxDischargeDepth := 40) [h]

/-! ### Triggers -/

@[simp] theorem inside_disarm {t : TrigId} (h : Inside r s) : Inside r (disarm t s) := by
  simp only [disarm]; (repeat' split) <;> simp (maxDischargeDepth := 40) [h]

@[simp] theorem inside_skip {t : TrigId} {d : Byte} {n : Half} {x : Word} (h : Inside r s) :
    Inside r (skip t d n x s) := by
  simp only [skip]
  split
  · split
    · rename_i e; exact inside_modTrigger (inside_tryOffer (inside_modTrigger h) e)
    · exact inside_modTrigger h
  · exact inside_modTrigger h

/-- A trigger slot is free for an instance (R34, R131). -/
theorem freeTriggerSlot_kind {k : SlotId} (h : s.freeTriggerSlot = some k) :
    Config.requestSlots ≤ k.val := by
  have := List.mem_of_find?_eq_some h
  simp [triggerSlots] at this
  exact this.2

/-- A request slot is free for an entry (R32, R34). -/
theorem freeRequestSlot_kind {k : SlotId} (h : s.freeRequestSlot = some k) :
    k.val < Config.requestSlots := by
  have := List.mem_of_find?_eq_some h
  simp [requestSlots] at this
  exact this.2

@[simp] theorem inside_expire {t : TrigId} {x : Word} {b : Bool} (h : Inside r s) :
    Inside r (expire t x b s) := by
  simp only [expire]
  split
  · simp (maxDischargeDepth := 40) [h]
  · split
    · rename_i k _ hk _
      split
      · simp (maxDischargeDepth := 40) [h]
      · rename_i room
        refine inside_insertTxn (by simp (maxDischargeDepth := 40) [h]) (by simp [State.listFull, newInstance] at room ⊢; exact room) fun _ => ?_
        have := freeTriggerSlot_kind hk
        simp [newInstance, Origin.isRequest]; omega
    · simp (maxDischargeDepth := 40) [h]

@[simp] theorem inside_applyFailLimit {t : TrigId} {x : Result} (h : Inside r s) : Inside r (applyFailLimit t x s) := by
  simp only [applyFailLimit]; (repeat' split) <;> simp (maxDischargeDepth := 40) [h]

@[simp] theorem inside_loadHoldoff {t : TrigId} (h : Inside r s) : Inside r (loadHoldoff t s) := by
  simp only [loadHoldoff]; (repeat' split) <;> simp (maxDischargeDepth := 40) [h]

@[simp] theorem inside_checkInstances (h : Inside r s) : Inside r (checkInstances s) := by
  simp only [checkInstances]; (repeat' split) <;> simp (maxDischargeDepth := 40) [h]

@[simp] theorem inside_completeInstance {t : TrigId} {x : Result} {l : List Byte} (h : Inside r s) : Inside r (completeInstance t x l s) := by
  simp only [completeInstance]; simp (maxDischargeDepth := 40) [h]

/-! ### Schedulers -/

@[simp] theorem inside_serviceEnd {p : PortId} {k : SlotId} (h : Inside r s) : Inside r (serviceEnd p k s) := by
  simp only [serviceEnd]; (repeat' split) <;> simp (maxDischargeDepth := 40) [h]

@[simp] theorem inside_fixOutside {p : PortId} {k : SlotId} {x : Result} {d : Byte} (h : Inside r s) : Inside r (fixOutside p k x d s) := by
  simp only [fixOutside]; simp (maxDischargeDepth := 40) [h]

@[simp] theorem inside_startDraining {p : PortId} {k : SlotId} {t : Txn} (h : Inside r s) : Inside r (startDraining p k t s) := by
  simp only [startDraining]; (repeat' split) <;> simp (maxDischargeDepth := 40) [h]

@[simp] theorem inside_endRetry {p : PortId} {k : SlotId} {b : Bool} {x : Word} (h : Inside r s) : Inside r (endRetry p k b x s) := by
  simp only [endRetry]; (repeat' split) <;> simp (maxDischargeDepth := 40) [h]

@[simp] theorem inside_backToIdle {p : PortId} (h : Inside r s) : Inside r (backToIdle p s) := by
  simp only [backToIdle]; simp (maxDischargeDepth := 40) [h]

@[simp] theorem inside_finishAttempt {p : PortId} {o : AttemptOutcome} {x : Word} (h : Inside r s) : Inside r (finishAttempt p o x s) := by
  simp only [finishAttempt]; (repeat' split) <;> simp (maxDischargeDepth := 40) [h]

@[simp] theorem inside_setPendingResult {p : PortId} {x : Result} {d : Byte} (h : Inside r s) : Inside r (setPendingResult p x d s) := by
  simp only [setPendingResult]; simp (maxDischargeDepth := 40) [h]

@[simp] theorem inside_takeStop {p : PortId} {x : StopResult} (h : Inside r s) : Inside r (takeStop p x s) := by
  simp only [takeStop]; (repeat' split) <;> simp (maxDischargeDepth := 40) [h]

@[simp] theorem inside_requestStop {p : PortId} {x : StopResult} (h : Inside r s) : Inside r (requestStop p x s) := by
  simp only [requestStop]; (repeat' split) <;> simp (maxDischargeDepth := 40) [h]

@[simp] theorem inside_expireActive {p : PortId} (h : Inside r s) : Inside r (expireActive p s) := by
  simp only [expireActive]; split <;> simp (maxDischargeDepth := 40) [h]

@[simp] theorem inside_faultService {p : PortId} {x : FaultReason} (h : Inside r s) : Inside r (faultService p x s) := by
  simp only [faultService]; (repeat' split) <;> simp (maxDischargeDepth := 40) [h]

/-! ### Ports -/

@[simp] theorem inside_enterIdle {p : PortId} (h : Inside r s) : Inside r (enterIdle p s) := by
  simp only [enterIdle]; (repeat' split) <;> simp (maxDischargeDepth := 40) [h]

@[simp] theorem inside_enterFaulted {p : PortId} {x : FaultReason} (h : Inside r s) : Inside r (enterFaulted p x s) := by
  simp only [enterFaulted]; (repeat' split) <;> simp (maxDischargeDepth := 40) [h]

@[simp] theorem inside_startRecovery {p : PortId} (h : Inside r s) : Inside r (startRecovery p s) := by
  simp only [startRecovery]; simp (maxDischargeDepth := 40) [h]

@[simp] theorem inside_startRecoveryStop {p : PortId} (h : Inside r s) : Inside r (startRecoveryStop p s) := by
  simp only [startRecoveryStop]; simp (maxDischargeDepth := 40) [h]

@[simp] theorem inside_leaveRecovery {p : PortId} {b : Bool} (h : Inside r s) : Inside r (leaveRecovery p b s) := by
  simp only [leaveRecovery]; (repeat' split) <;> simp (maxDischargeDepth := 40) [h]

@[simp] theorem inside_recoverySucceeds {p : PortId} {b : Bool} (h : Inside r s) : Inside r (recoverySucceeds p b s) := by
  simp only [recoverySucceeds]; simp (maxDischargeDepth := 40) [h]

@[simp] theorem inside_endQuiet {p : PortId} (h : Inside r s) : Inside r (endQuiet p s) := by
  simp only [endQuiet]; (repeat' split) <;> simp (maxDischargeDepth := 40) [h]

@[simp] theorem inside_takeQuiet {p : PortId} (h : Inside r s) : Inside r (takeQuiet p s) := by
  simp only [takeQuiet]; (repeat' split) <;> simp (maxDischargeDepth := 40) [h]

@[simp] theorem inside_leaveTarget {p : PortId} (h : Inside r s) : Inside r (leaveTarget p s) := by
  simp only [leaveTarget]; simp (maxDischargeDepth := 40) [h]

@[simp] theorem inside_haltPort {p : PortId} (h : Inside r s) : Inside r (haltPort s p) := by
  simp only [haltPort]; (repeat' split) <;> simp (maxDischargeDepth := 40) [h]

@[simp] theorem inside_stopPort {p : PortId} (h : Inside r s) : Inside r (stopPort s p) := by
  simp only [stopPort]; (repeat' split) <;> simp (maxDischargeDepth := 40) [h]

@[simp] theorem inside_settleLoss {p : PortId} {x : LossPlace} (h : Inside r s) : Inside r (settleLoss p x s) := by
  simp only [settleLoss]; (repeat' split) <;> simp (maxDischargeDepth := 40) [h]

@[simp] theorem inside_loseArbitration {p : PortId} {x : LossPlace} {b : Bool} (h : Inside r s) : Inside r (loseArbitration p x b s) := by
  simp only [loseArbitration]; (repeat' split) <;> simp (maxDischargeDepth := 40) [h]

@[simp] theorem inside_leaveOnTimeout {p : PortId} {x : FaultReason} (h : Inside r s) : Inside r (leaveOnTimeout p x s) := by
  simp only [leaveOnTimeout]; (repeat' split) <;> simp (maxDischargeDepth := 40) [h]

@[simp] theorem inside_timeoutAttempt {p : PortId} {d : Byte} (h : Inside r s) : Inside r (timeoutAttempt p d s) := by
  simp only [timeoutAttempt]; simp (maxDischargeDepth := 40) [h]

@[simp] theorem inside_timeoutEffects {p : PortId} {x : FaultReason} {d : Byte} (h : Inside r s) : Inside r (timeoutEffects p x d s) := by
  simp only [timeoutEffects]; (repeat' split) <;> simp (maxDischargeDepth := 40) [h]

/-! ### Completion writer and receive unit -/

@[simp] theorem inside_receiveAccepted (h : Inside r s) : Inside r (receiveAccepted s) := inside_rx h

@[simp] theorem inside_malformedAccepted {k : SlotId} (h : Inside r s) :
    Inside r (malformedAccepted k s) :=
  inside_fetch (inside_modTxn h fun _ => rfl) fun tn htn => by simpa using htn

@[simp] theorem inside_offerReceive (h : Inside r s) : Inside r (offerReceive s) := by
  unfold offerReceive
  split
  · split
    · rename_i e; exact inside_receiveAccepted (inside_tryOffer h e)
    · exact h
  · exact h

@[simp] theorem inside_offerMalformed {k : SlotId} (h : Inside r s) :
    Inside r (offerMalformed k s) := by
  unfold offerMalformed
  split
  · exact h
  · split
    · rename_i e; exact inside_malformedAccepted (inside_tryOffer h e)
    · exact inside_fetch h fun _ => id

@[simp] theorem inside_offerStalled (h : Inside r s) : Inside r (offerStalled s) := by
  simp only [offerStalled]; (repeat' split) <;> simp (maxDischargeDepth := 40) [h]

@[simp] theorem inside_offerAgain {b : OfferBlock} (h : Inside r s) : Inside r (offerAgain b s) := by
  cases b <;> simp [offerAgain, h]

@[simp] theorem inside_accepted {b : OfferBlock} (h : Inside r s) : Inside r (accepted b s) := by
  cases b <;> simp only [accepted] <;> (try split) <;> simp (maxDischargeDepth := 40) [h]

/-- There are no more claims than free places (R111). -/
theorem claims_length (s : State) :
    s.claims.length ≤ Config.holdingCapacity - s.comp.holding.length := List.length_take_le _ _

@[simp] theorem inside_handOut (h : Inside r s) : Inside r (handOut s) := by
  unfold handOut
  refine inside_foldl (fun _ _ _ => inside_accepted) _ (h.trans ⟨rfl, rfl, rfl, rfl, fun _ => id, rfl, rfl,
    (Inside.same (s := s)).sent, fun g => ?_, id, id, id⟩)
  have := claims_length s
  simp only [HoldingBounded, List.length_append, List.length_map] at g ⊢
  omega

@[simp] theorem inside_releaseWaiting {n : CqId} {b : OfferBlock} (h : Inside r s) : Inside r (releaseWaiting n s b) := by
  simp only [releaseWaiting]; (repeat' split) <;> simp (maxDischargeDepth := 40) [h]

@[simp] theorem inside_raiseCq {n : CqId} (h : Inside r s) : Inside r (raiseCq n s) :=
  inside_raiseIsr (inside_modCq h) (by omega)

@[simp] theorem inside_announce {n : CqId} {b : Bool} (h : Inside r s) : Inside r (announce n b s) := by
  simp only [announce]; (repeat' split) <;> simp (maxDischargeDepth := 40) [h]

@[simp] theorem inside_discardQueue {n : CqId} (h : Inside r s) : Inside r (discardQueue n s) :=
  inside_foldl (fun _ _ _ => inside_discard) _ (inside_comp h (List.length_filter_le _ _))

@[simp] theorem inside_failBound {n : CqId} (h : Inside r s) : Inside r (failBound n s) :=
  inside_foldl (fun _ _ _ h => by split <;> simp (maxDischargeDepth := 40) [h]) _ h

@[simp] theorem inside_cqEnterError {n : CqId} {x : CqReason} (h : Inside r s) :
    Inside r (cqEnterError n x s) := by
  simp only [cqEnterError]
  split
  · refine inside_foldl (fun _ _ _ => inside_releaseWaiting) _ (inside_handOut ?_)
    (repeat' split) <;> simp (maxDischargeDepth := 40) [h]
  · exact h

@[simp] theorem inside_rxEnterError {x : RxReason} (h : Inside r s) : Inside r (rxEnterError x s) := by
  simp only [rxEnterError]; (repeat' split) <;> simp (maxDischargeDepth := 40) [h]

end Sys2Proof.Machine
end

