-- ==== Sys2Proof/Laws/Ops.lean ====
section
/-! SUPPORT. What the shared operations do, once each: two changes of one object are one change, a latch is
set and leaves the rest, a command completes or is left, a port enters IDLE or FAULTED, a record is
offered, and the record of the in-service transaction is posted. -/

namespace Sys2Proof.Machine

variable {s : State}

/-! ### Changes of one object -/

theorem upd_upd {α : Type} {n : Nat} (v : Vector α n) (i : Fin n) (f g : α → α) :
    upd (upd v i f) i g = upd v i fun x => g (f x) := by
  have h : (upd v i f).get i = f (v.get i) := by rw [get_upd, if_pos rfl]
  unfold upd at h ⊢
  rw [h, Vector.set_set]

/-- Two changes of one port are one, and so for a queue, a ring's queue and an entry. -/
theorem modPort_modPort (p : PortId) (f g : Port → Port) :
    (s.modPort p f).modPort p g = s.modPort p fun P => g (f P) := by
  unfold State.modPort
  simp only [upd_upd]
theorem modRq_modRq (q : RqId) (f g : RqCtx → RqCtx) :
    (s.modRq q f).modRq q g = s.modRq q fun c => g (f c) := by
  unfold State.modRq
  simp only [upd_upd]
theorem modCq_modCq (n : CqId) (f g : CqCtx → CqCtx) :
    (s.modCq n f).modCq n g = s.modCq n fun c => g (f c) := by
  unfold State.modCq
  simp only [upd_upd]
theorem modTrigger_modTrigger (t : TrigId) (f g : Trigger → Trigger) :
    (s.modTrigger t f).modTrigger t g = s.modTrigger t fun E => g (f E) := by
  unfold State.modTrigger
  simp only [upd_upd]
theorem setSlot_setSlot (k : SlotId) (x y : Slot) : (s.setSlot k x).setSlot k y = s.setSlot k y := by
  unfold State.setSlot
  simp only [upd_upd]

/-- Two changes that agree on the port as it is are the same change. -/
theorem modPort_congr (p : PortId) (f g : Port → Port) (h : f (s.port p) = g (s.port p)) :
    s.modPort p f = s.modPort p g := by
  unfold State.modPort upd
  rw [show f (s.ports.get p) = g (s.ports.get p) from h]

/-- A target unit's or a counter's change, as a change of the port. -/
theorem modTarget_eq (p : PortId) (f : Target → Target) :
    s.modTarget p f = s.modPort p fun P => { P with tgt := f P.tgt } := rfl
theorem modStats_eq (p : PortId) (f : Stats → Stats) :
    s.modStats p f = s.modPort p fun P => { P with stats := f P.stats } := rfl

/-! ### Latches and commands -/

/-- A latch that is set is set, and nothing outside the management unit changes. -/
theorem setLatch_mem (l : Latch) (x : Byte) : ∃ y ∈ (setLatch l x s).mgmt.latches, y.latch = l := by
  unfold setLatch
  split
  · rename_i h; simpa using h
  · simp
theorem setLatch_eq (l : Latch) (x : Byte) :
    setLatch l x s = { s with mgmt := (setLatch l x s).mgmt } := by
  unfold setLatch; split <;> rfl
theorem setLatch_keeps (l : Latch) (x : Byte) :
    (setLatch l x s).mgmt = { s.mgmt with latches := (setLatch l x s).mgmt.latches } := by
  unfold setLatch; split <;> rfl

/-- A command that waits elsewhere is left. -/
theorem completeIf_left {ph : CmdPhase} {x : Status} {a : Word} (h : s.commandAt ph = false) :
    completeIf ph x a s = s := by simp [completeIf, h]

/-- A command that waits at the phase completes. -/
theorem completeIf_at {ph : CmdPhase} {x : Status} {a : Word} {e : List Byte}
    (h : s.mgmt.command = some { entry := e, phase := ph }) :
    completeIf ph x a s = answered e x a 0 s := by
  simp [completeIf, State.commandAt, h, completeCommand, State.modMgmt, answered]

/-- The completion of a command changes nothing outside the management unit, and no latch. -/
theorem completeIf_eq (ph : CmdPhase) (x : Status) (a : Word) :
    completeIf ph x a s = { s with mgmt := (completeIf ph x a s).mgmt } := by
  unfold completeIf completeCommand
  split
  · split <;> rfl
  · rfl
theorem completeIf_latches (ph : CmdPhase) (x : Status) (a : Word) :
    (completeIf ph x a s).mgmt.latches = s.mgmt.latches := by
  unfold completeIf completeCommand
  split
  · split <;> rfl
  · rfl
theorem completeIf_port (ph : CmdPhase) (x : Status) (a : Word) (p : PortId) :
    (completeIf ph x a s).port p = s.port p := by rw [completeIf_eq]; rfl

/-! ### Ports -/

/-- A port not told to disable enters IDLE, no command waiting for it (R89, R91). -/
theorem enterIdle_eq {p : PortId} (hd : (s.port p).tgt.disableTold = false)
    (hc : s.commandAt (.port p .enable) = false) :
    enterIdle p s = s.modPort p fun P =>
      { P with
        state := .idle, inStep := true, busFree := true, awaitAddr := false, reason := none,
        enabling := false, clockLowFrom := s.timebase, stuckDataFrom := s.timebase } := by
  unfold enterIdle
  simp only [completeIf_left (s := s.modPort p _) hc, port_modPort, if_true, hd]
  rfl

/-- The enabling wait ends so, with SUCCESS (R93). -/
theorem enterIdle_enabled {p : PortId} {e : List Byte} (hd : (s.port p).tgt.disableTold = false)
    (hc : s.mgmt.command = some { entry := e, phase := .port p .enable }) :
    enterIdle p s = answered e .success 0 0 (s.modPort p fun P =>
      { P with
        state := .idle, inStep := true, busFree := true, awaitAddr := false, reason := none,
        enabling := false, clockLowFrom := s.timebase, stuckDataFrom := s.timebase }) := by
  unfold enterIdle
  simp only [completeIf_at (s := s.modPort p _) hc]
  have h : ∀ u : State, ((answered e .success 0 0 u).port p) = u.port p := fun _ => rfl
  rw [if_neg]
  rw [h, port_modPort, if_pos rfl]
  simpa using hd

/-- The timeouts reached are those whose timers have run for the bus timeout (R95). -/
theorem clockLow_mem_timeoutsReached {p : PortId} :
    .clockLow ∈ s.timeoutsReached p ↔ (s.port p).cfg.busTimeout ≠ 0 ∧
      (s.port p).cfg.busTimeout.toNat * 1000 ≤ (s.timebase - (s.port p).clockLowFrom).toNat := by
  unfold State.timeoutsReached State.timeoutPassed State.since
  (repeat' split) <;> simp_all
theorem dataLow_mem_timeoutsReached {p : PortId} :
    .dataLow ∈ s.timeoutsReached p ↔ (s.port p).cfg.busTimeout ≠ 0 ∧
      (s.port p).cfg.busTimeout.toNat * 1000 ≤ (s.timebase - (s.port p).stuckDataFrom).toNat := by
  unfold State.timeoutsReached State.timeoutPassed State.since
  (repeat' split) <;> simp_all

/-- All that the end of an attempt keeps of the timers it is about to set back (R96). -/
@[simp] theorem tieTimeouts_port {p q : PortId} :
    (tieTimeouts p s).port q =
      if p = q then { s.port p with tied := (s.port p).tied ++ s.timeoutsReached p } else s.port q :=
  port_modPort ..

/-- Time passing leaves no expiry to be taken, and nothing else of a port changes. -/
theorem tickTimebase_port {p : PortId} (h : s.link.linkReset = false) :
    (tickTimebase s).port p = { s.port p with tied := [] } := by
  unfold tickTimebase State.port
  rw [h]
  exact Vector.get_map ..

/-- A port not told to disable, with nothing in service, enters FAULTED (R93, R100, R101). -/
theorem enterFaulted_spec {p : PortId} {x : FaultReason} (hd : (s.port p).tgt.disableTold = false)
    (hn : (s.port p).inService = none) :
    enterFaulted p x s = completeIf (.port p .restart) .stuck (x.code.setWidth 32)
      (completeIf (.port p .enable) .stuck (x.code.setWidth 32) (setLatch (.portFault p) x.code
        (s.modPort p fun P =>
          { P with
            state := .faulted, inStep := false, awaitAddr := false, enabling := false,
            reason := some x, recovery := .none, sclDriven := false, sdaDriven := false,
            stats := { P.stats with faults := P.stats.faults + 1 } }))) := by
  unfold enterFaulted faultService
  simp only [completeIf_port, setLatch_port, port_modPort, if_true, hn]
  rw [if_neg]
  simp [hd]

/-! ### Offers (R54, R111) -/

/-- An offer enters the list, is discarded at once, or is refused. -/
theorem tryOffer_cases (e : HoldEntry) :
    ((s.cq e.cq).state = .running ∧ s.comp.holding.length < Config.holdingCapacity ∧
      tryOffer e s = some { s with comp := { s.comp with holding := s.comp.holding ++ [e] } }) ∨
    ((s.cq e.cq).state ≠ .running ∧ tryOffer e s = some (discard e s)) ∨
    ((s.cq e.cq).state = .running ∧ Config.holdingCapacity ≤ s.comp.holding.length ∧
      tryOffer e s = none) := by
  unfold tryOffer
  by_cases h : (s.cq e.cq).state = .running
  · by_cases g : s.comp.holding.length < Config.holdingCapacity
    · exact .inl ⟨h, g, by simp [h, g]⟩
    · exact .inr (.inr ⟨h, Nat.not_lt.mp g, by simp [h, g]⟩)
  · exact .inr (.inl ⟨h, by simp [h]⟩)

/-- With no queue holding a transaction, a place that frees is offered to none. -/
theorem offerPlace_none {p : PortId} (h : ∀ q, (s.rq q).hold = none) : offerPlace p s = s := by
  unfold offerPlace
  rw [List.find?_eq_none.mpr]
  intro q _
  simp [State.waitsFor, State.held, h]

/-- With no queue holding a transaction and no disable pending, the in-service transaction leaves the
list and is counted (R54, R62). -/
theorem leaveList_eq (s : State) (p : PortId) (hh : ∀ q, (s.rq q).hold = none)
    (hd : (s.port p).disablePending = false) :
    leaveList p s = s.modPort p fun P =>
      { P with
        list := P.list.tail, inService := none, pendingResult := none,
        stats := { P.stats with completed := P.stats.completed + 1 } } := by
  unfold leaveList
  simp only [offerPlace_none (s := s.modPort p _) hh, port_modPort, if_true, hd]
  rfl

/-- The record of a POSTING transaction that can be handed over is handed over (R54). -/
theorem offerService_posts {p : PortId} {k : SlotId} {t : Txn} (hs : (s.port p).inService = some k)
    (ht : s.txn k = some t) (hp : t.state = .posting) (hc : CanPost s p t) :
    RecordPosted s (offerService p s) p k t := by
  obtain ⟨⟨q, ho⟩, hq, hl, hh, hd⟩ := hc
  have he : serviceEntry k t = ⟨txnRecord t, t.cq, t.req.notify, some k⟩ := by
    simp [serviceEntry, ho]
  have hx : tryOffer (serviceEntry k t) s =
      some { s with comp := { s.comp with holding := s.comp.holding ++ [serviceEntry k t] } } := by
    unfold tryOffer
    rw [he]
    simp [hq, hl]
  have hu : offerService p s = leaveList p
      (State.modTxn { s with comp := { s.comp with holding := s.comp.holding ++ [serviceEntry k t] } }
        k fun t => { t with state := .recorded }) := by
    have hps : s.posting p = some (k, t) := by simp [State.posting, hs, ht, hp]
    unfold offerService
    simp only [hps, hx, serviceAccepted]
  have ht' : State.txn
      { s with comp := { s.comp with holding := s.comp.holding ++ [serviceEntry k t] } } k =
      some t := ht
  rw [hu, modTxn_of_txn ht']
  rw [leaveList_eq _ p (by exact hh) (by exact hd)]
  unfold RecordPosted
  simp only [port_modPort, if_true, modPort_comp, modPort_txn, modPort_rqs, modPort_cqs, txn_setSlot]
  refine ⟨by rw [← he]; rfl, ?_, ?_, ?_, ?_, ?_, ?_, ?_⟩ <;> first | rfl | trivial

end Sys2Proof.Machine
end

