-- ==== Sys2Proof/WellFormed.lean ====
section
/-! DEFINITION. Which commands are well formed: the bounds that the operands' types do not carry. -/

namespace Sys2Proof

/-- A register write carries 1 to 4 bytes (R186), the bytes of a staging read fit the outbound
staging (R8), and the bytes of a command's host buffer fit the longest buffer a command reads, the
256 bytes of an image (R152, R180). Every other operand is bounded by its type. -/
def Instr.wellFormed : Instr → Bool
  | .registerWrite _ nbytes _ => decide (1 ≤ nbytes) && decide (nbytes ≤ 4)
  | .stagingReadEnd _ _ data => decide (data.length ≤ 4096)
  | .commandHostAccessEnd _ data => decide (data.length ≤ 256)
  | _ => true

end Sys2Proof
end

