-- ==== Sys2Proof/Laws/PerInstr.lean ====
section
/-! SUPPORT. The per-command family: a well-formed command brings no more host bytes than a staging area
holds. -/

namespace Sys2Proof.Laws.HostBytes

/-- The bytes a command brings from the host: those a read of host memory returned (R8, R32, R152,
R162, R169, R193) or those of a register write (R186). -/
def hostBytes : Instr → Nat
  | .registerWrite _ nbytes _ => nbytes
  | .headerReadEnd _ _ => 64
  | .mqEntryReadEnd _ _ => 64
  | .rqEntryReadEnd _ _ => 64
  | .receiveFetchEnd _ _ => 16
  | .stagingReadEnd _ _ data => data.length
  | .commandHostAccessEnd _ data => data.length
  | _ => 0

/-- A well-formed command brings at most the 4096 bytes of a staging area (R8). -/
def Statement (i : Instr) : Prop := i.wellFormed = true → hostBytes i ≤ 4096

theorem powerOnReset : Statement .powerOnReset := fun _ => Nat.zero_le _
theorem linkReset : Statement .linkReset := fun _ => Nat.zero_le _
theorem softReset (en : Bool) : Statement (.softReset en) := fun _ => Nat.zero_le _
theorem controllerEnable : Statement .controllerEnable := fun _ => Nat.zero_le _
theorem controllerStop : Statement .controllerStop := fun _ => Nat.zero_le _
theorem stopComplete : Statement .stopComplete := fun _ => Nat.zero_le _
theorem gsrStrayClear (value : Word) : Statement (.gsrStrayClear value) := fun _ => Nat.zero_le _
theorem isrClear (value : Word) : Statement (.isrClear value) := fun _ => Nat.zero_le _
theorem imrWrite (value : Word) : Statement (.imrWrite value) := fun _ => Nat.zero_le _
theorem registerWrite (offset : BitVec 12) (nbytes : Nat) (value : Word) : Statement (.registerWrite offset nbytes value) := by
  intro h; simp [Instr.wellFormed, hostBytes] at *; omega
theorem mqPostedNotify (count : Half) : Statement (.mqPostedNotify count) := fun _ => Nat.zero_le _
theorem rqPostedNotify (q : RqId) (count : Half) : Statement (.rqPostedNotify q count) :=
  fun _ => Nat.zero_le _
theorem receiveRingPostedNotify (count : Half) : Statement (.receiveRingPostedNotify count) :=
  fun _ => Nat.zero_le _
theorem mcqConsumedNotify (count : Half) : Statement (.mcqConsumedNotify count) :=
  fun _ => Nat.zero_le _
theorem cqConsumedNotify (n : CqId) (count : Half) : Statement (.cqConsumedNotify n count) :=
  fun _ => Nat.zero_le _
theorem strayNotify (side : Bool) (index : Byte) (count : Half) : Statement (.strayNotify side index count) :=
  fun _ => Nat.zero_le _
theorem busMasteringChange (enable : Bool) : Statement (.busMasteringChange enable) :=
  fun _ => Nat.zero_le _
theorem accessTimeout (k : Nat) : Statement (.accessTimeout k) := fun _ => Nat.zero_le _
theorem headerReadEnd (ok : Bool) (data : Vector Byte 64) : Statement (.headerReadEnd ok data) :=
  fun _ => by simp [hostBytes]
theorem mqEntryTake : Statement .mqEntryTake := fun _ => Nat.zero_le _
theorem mqEntryReadEnd (ok : Bool) (data : Vector Byte 64) : Statement (.mqEntryReadEnd ok data) :=
  fun _ => by simp [hostBytes]
theorem mqStatusWordWriteEnd (ok : Bool) : Statement (.mqStatusWordWriteEnd ok) :=
  fun _ => Nat.zero_le _
theorem unknownCommand : Statement .unknownCommand := fun _ => Nat.zero_le _
theorem identify : Statement .identify := fun _ => Nat.zero_le _
theorem createCompletionQueue : Statement .createCompletionQueue := fun _ => Nat.zero_le _
theorem deleteCompletionQueue : Statement .deleteCompletionQueue := fun _ => Nat.zero_le _
theorem createRequestQueue : Statement .createRequestQueue := fun _ => Nat.zero_le _
theorem deleteRequestQueue : Statement .deleteRequestQueue := fun _ => Nat.zero_le _
theorem configurePort : Statement .configurePort := fun _ => Nat.zero_le _
theorem enablePort : Statement .enablePort := fun _ => Nat.zero_le _
theorem disablePort : Statement .disablePort := fun _ => Nat.zero_le _
theorem restartPort : Statement .restartPort := fun _ => Nat.zero_le _
theorem setReceiveRing : Statement .setReceiveRing := fun _ => Nat.zero_le _
theorem writeImage : Statement .writeImage := fun _ => Nat.zero_le _
theorem setReply : Statement .setReply := fun _ => Nat.zero_le _
theorem defineTrigger : Statement .defineTrigger := fun _ => Nat.zero_le _
theorem enableTriggers (alerts : BitVec 4) : Statement (.enableTriggers alerts) :=
  fun _ => Nat.zero_le _
theorem disableTriggers : Statement .disableTriggers := fun _ => Nat.zero_le _
theorem clearTrigger : Statement .clearTrigger := fun _ => Nat.zero_le _
theorem queryTrigger : Statement .queryTrigger := fun _ => Nat.zero_le _
theorem setTick : Statement .setTick := fun _ => Nat.zero_le _
theorem abort : Statement .abort := fun _ => Nat.zero_le _
theorem readPortStatistics : Statement .readPortStatistics := fun _ => Nat.zero_le _
theorem commandHostAccessEnd (ok : Bool) (data : List Byte) : Statement (.commandHostAccessEnd ok data) := by
  intro h; simp [Instr.wellFormed, hostBytes] at *; omega
theorem mcqWriteSequence : Statement .mcqWriteSequence := fun _ => Nat.zero_le _
theorem eventRecord (l : Latch) : Statement (.eventRecord l) := fun _ => Nat.zero_le _
theorem mcqRecordWriteEnd (ok : Bool) : Statement (.mcqRecordWriteEnd ok) := fun _ => Nat.zero_le _
theorem mcqStatusWordWriteEnd (ok : Bool) : Statement (.mcqStatusWordWriteEnd ok) :=
  fun _ => Nat.zero_le _
theorem fetchTurn : Statement .fetchTurn := fun _ => Nat.zero_le _
theorem rqEntryReadEnd (ok : Bool) (data : Vector Byte 64) : Statement (.rqEntryReadEnd ok data) :=
  fun _ => by simp [hostBytes]
theorem rqStatusWordWriteEnd (q : RqId) (k : Nat) (ok : Bool) : Statement (.rqStatusWordWriteEnd q k ok) :=
  fun _ => Nat.zero_le _
theorem dispatch (p : PortId) : Statement (.dispatch p) := fun _ => Nat.zero_le _
theorem stagingReadEnd (p : PortId) (ok : Bool) (data : List Byte) : Statement (.stagingReadEnd p ok data) := by
  intro h; simp [Instr.wellFormed, hostBytes] at *; omega
theorem attemptBegin (p : PortId) : Statement (.attemptBegin p) := fun _ => Nat.zero_le _
theorem masterStart (p : PortId) (won : Bool) : Statement (.masterStart p won) :=
  fun _ => Nat.zero_le _
theorem masterAddressByte (p : PortId) (ack : Bool) : Statement (.masterAddressByte p ack) :=
  fun _ => Nat.zero_le _
theorem masterDataByteSent (p : PortId) (ack : Bool) : Statement (.masterDataByteSent p ack) :=
  fun _ => Nat.zero_le _
theorem masterByteReceived (p : PortId) (byte : Byte) : Statement (.masterByteReceived p byte) :=
  fun _ => Nat.zero_le _
theorem countByte (p : PortId) (n : Byte) : Statement (.countByte p n) := fun _ => Nat.zero_le _
theorem checkByte (p : PortId) (ack : Bool) (byte : Byte) : Statement (.checkByte p ack byte) :=
  fun _ => Nat.zero_le _
theorem repeatedStart (p : PortId) (won : Bool) : Statement (.repeatedStart p won) :=
  fun _ => Nat.zero_le _
theorem masterStopComplete (p : PortId) : Statement (.masterStopComplete p) := fun _ => Nat.zero_le _
theorem segmentOpen (p : PortId) : Statement (.segmentOpen p) := fun _ => Nat.zero_le _
theorem arbitrationLoss (p : PortId) (place : LossPlace) (winner : Byte) : Statement (.arbitrationLoss p place winner) :=
  fun _ => Nat.zero_le _
theorem retryGapExpiry (p : PortId) : Statement (.retryGapExpiry p) := fun _ => Nat.zero_le _
theorem deadlineExpiry (k : SlotId) : Statement (.deadlineExpiry k) := fun _ => Nat.zero_le _
theorem drainingWriteEnd (p : PortId) (ok : Bool) : Statement (.drainingWriteEnd p ok) :=
  fun _ => Nat.zero_le _
theorem recordSelection : Statement .recordSelection := fun _ => Nat.zero_le _
theorem recordWriteEnd (ok : Bool) : Statement (.recordWriteEnd ok) := fun _ => Nat.zero_le _
theorem cqStatusWordWriteEnd (n : CqId) (k : Nat) (ok : Bool) : Statement (.cqStatusWordWriteEnd n k ok) :=
  fun _ => Nat.zero_le _
theorem coalescingTimerExpiry (n : CqId) : Statement (.coalescingTimerExpiry n) :=
  fun _ => Nat.zero_le _
theorem busStartSeen (p : PortId) : Statement (.busStartSeen p) := fun _ => Nat.zero_le _
theorem busStopSeen (p : PortId) : Statement (.busStopSeen p) := fun _ => Nat.zero_le _
theorem idleTimeExpiry (p : PortId) : Statement (.idleTimeExpiry p) := fun _ => Nat.zero_le _
theorem clockLowTimeout (p : PortId) : Statement (.clockLowTimeout p) := fun _ => Nat.zero_le _
theorem stuckDataTimeout (p : PortId) : Statement (.stuckDataTimeout p) := fun _ => Nat.zero_le _
theorem recoverySclHigh (p : PortId) (sdaHigh : Bool) : Statement (.recoverySclHigh p sdaHigh) :=
  fun _ => Nat.zero_le _
theorem recoveryPulse (p : PortId) (sdaHigh : Bool) : Statement (.recoveryPulse p sdaHigh) :=
  fun _ => Nat.zero_le _
theorem recoveryStop (p : PortId) (sclRose sdaRose : Bool) : Statement (.recoveryStop p sclRose sdaRose) :=
  fun _ => Nat.zero_le _
theorem recoveryFinalWaitEnd (p : PortId) : Statement (.recoveryFinalWaitEnd p) :=
  fun _ => Nat.zero_le _
theorem restartIdleWaitEnd (p : PortId) : Statement (.restartIdleWaitEnd p) := fun _ => Nat.zero_le _
theorem recoveryLimitExpiry (p : PortId) (sclHigh : Bool) : Statement (.recoveryLimitExpiry p sclHigh) :=
  fun _ => Nat.zero_le _
theorem addressByte (p : PortId) (byte : Byte) : Statement (.addressByte p byte) :=
  fun _ => Nat.zero_le _
theorem imageWriteByte (p : PortId) (byte : Byte) : Statement (.imageWriteByte p byte) :=
  fun _ => Nat.zero_le _
theorem mailboxWriteByte (p : PortId) (byte : Byte) : Statement (.mailboxWriteByte p byte) :=
  fun _ => Nat.zero_le _
theorem imageReadByte (p : PortId) (ack : Bool) : Statement (.imageReadByte p ack) :=
  fun _ => Nat.zero_le _
theorem replyReadByte (p : PortId) (ack : Bool) : Statement (.replyReadByte p ack) :=
  fun _ => Nat.zero_le _
theorem targetReadConflict (p : PortId) : Statement (.targetReadConflict p) := fun _ => Nat.zero_le _
theorem targetTransferEnd (p : PortId) (ending : TransferEnding) : Statement (.targetTransferEnd p ending) :=
  fun _ => Nat.zero_le _
theorem stretchLimitExpiry (p : PortId) : Statement (.stretchLimitExpiry p) := fun _ => Nat.zero_le _
theorem targetDrainEnd (p : PortId) (ok : Bool) : Statement (.targetDrainEnd p ok) :=
  fun _ => Nat.zero_le _
theorem receiveFetchStart : Statement .receiveFetchStart := fun _ => Nat.zero_le _
theorem receiveFetchEnd (ok : Bool) (data : Vector Byte 16) : Statement (.receiveFetchEnd ok data) :=
  fun _ => by simp [hostBytes]
theorem receiveStatusWordWriteEnd (k : Nat) (ok : Bool) : Statement (.receiveStatusWordWriteEnd k ok) :=
  fun _ => Nat.zero_le _
theorem tick (alerts : BitVec 4) : Statement (.tick alerts) := fun _ => Nat.zero_le _
theorem periodicExpiry (t : TrigId) : Statement (.periodicExpiry t) := fun _ => Nat.zero_le _
theorem endOfHoldoff (t : TrigId) (alertLow : Bool) : Statement (.endOfHoldoff t alertLow) :=
  fun _ => Nat.zero_le _
theorem alertFallingTransition (p : PortId) : Statement (.alertFallingTransition p) :=
  fun _ => Nat.zero_le _
theorem linkResetDeasserted : Statement .linkResetDeasserted := fun _ => Nat.zero_le _
theorem controllerStatusWordWriteEnd (k : Nat) (ok : Bool) : Statement (.controllerStatusWordWriteEnd k ok) :=
  fun _ => Nat.zero_le _

end Sys2Proof.Laws.HostBytes
end

