-- ==== Sys2Proof/Laws/Steps.lean ====
section
/-! SUPPORT. What the controller's own operations do (chapter 10): the entry to HALTED and the stop change
the host link's context and then stay inside the part; and what the steps of the other blocks keep. -/

namespace Sys2Proof.Machine

variable {r s : State}

/-- Entry to HALTED: from STARTING or RUNNING the state and the halt fault are set and ISR bit 7 with
them, and everything else stays inside; in any other state nothing happens (R194). -/
theorem enterHalted_spec (f : HaltFault) (s : State) :
    ((s.link.ctrl = .starting ∨ s.link.ctrl = .running) ∧
      Inside (raiseIsr 7 { s with link := { s.link with ctrl := .halted, haltFault := f } })
        (enterHalted f s)) ∨
    (s.link.ctrl ≠ .starting ∧ s.link.ctrl ≠ .running ∧ enterHalted f s = s) := by
  by_cases c : s.link.ctrl = .starting ∨ s.link.ctrl = .running
  · refine .inl ⟨c, ?_⟩
    unfold enterHalted
    rw [if_pos (by rcases c with c | c <;> simp [c])]
    refine inside_foldl (fun _ _ _ => inside_haltPort) _ ?_
    have g : ∀ u : State, Inside u (writeControllerStatus u) := fun u =>
      inside_writeControllerStatus Inside.same
    exact (g _).of_eq rfl rfl rfl rfl le_rfl (fun _ => Port.keepsList_self) (same_txn rfl)
      fun _ => id
  · have c₁ : s.link.ctrl ≠ .starting := fun e => c (.inl e)
    have c₂ : s.link.ctrl ≠ .running := fun e => c (.inr e)
    refine .inr ⟨c₁, c₂, ?_⟩
    unfold enterHalted
    simp [c₁, c₂]

/-- EN written 0: from STARTING, RUNNING and HALTED the controller enters STOPPING and EN becomes 0, and
everything else stays inside; in any other state nothing happens (R188, R195). -/
theorem stopController_spec (s : State) :
    ((s.link.ctrl = .starting ∨ s.link.ctrl = .running ∨ s.link.ctrl = .halted) ∧
      Inside { s with link := { s.link with ctrl := .stopping, en := false } } (stopController s)) ∨
    (s.link.ctrl ≠ .starting ∧ s.link.ctrl ≠ .running ∧ s.link.ctrl ≠ .halted ∧
      stopController s = s) := by
  by_cases c : s.link.ctrl = .starting ∨ s.link.ctrl = .running ∨ s.link.ctrl = .halted
  · refine .inl ⟨c, ?_⟩
    unfold stopController
    rw [if_pos (by rcases c with c | c | c <;> simp [c])]
    exact inside_foldl (fun _ _ _ => inside_stopPort) _ (inside_trig Inside.same)
  · have c₁ : s.link.ctrl ≠ .starting := fun e => c (.inl e)
    have c₂ : s.link.ctrl ≠ .running := fun e => c (.inr (.inl e))
    have c₃ : s.link.ctrl ≠ .halted := fun e => c (.inr (.inr e))
    refine .inr ⟨c₁, c₂, c₃, ?_⟩
    unfold stopController
    simp [c₁, c₂, c₃]

/-! ### Guards and host accesses -/

theorem inside_awake {f : State → State} (h : Inside r s) (hf : ∀ s, Inside r s → Inside r (f s)) :
    Inside r (awake s f) := by unfold awake; split; exact h; exact hf s h
theorem inside_whenRunning {f : State → State} (h : Inside r s)
    (hf : ∀ s, Inside r s → Inside r (f s)) : Inside r (whenRunning s f) :=
  inside_awake h fun s h => by split; exact hf s h; exact h
theorem inside_whenLive {f : State → State} (h : Inside r s)
    (hf : ∀ s, Inside r s → Inside r (f s)) : Inside r (whenLive s f) :=
  inside_awake h fun s h => by split; exact hf s h; exact h

/-- The end of an access stays inside when its block's reaction does. -/
theorem inside_endAccess {f : Access → Bool} {k got : Nat} {ok : Bool}
    {g : Access → Bool → State → State} (h : Inside r s)
    (hg : ∀ a b s, Inside r s → Inside r (g a b s)) : Inside r (endAccess f k ok got g s) := by
  simp only [endAccess]
  split
  · exact h
  · split
    · exact h
    · split
      · exact hg _ _ _ (inside_accesses h)
      · exact inside_accesses h

/-- The access found along a list: `k` of those named precede it. -/
theorem popAccess_iff {f : Access → Bool} {k : Nat} {l : List Access} {a : Access}
    {rest : List Access} :
    popAccess f k l = some (a, rest) ↔
      ∃ pre post, l = pre ++ a :: post ∧ rest = pre ++ post ∧ f a = true ∧ pre.countP f = k := by
  induction l generalizing rest k with
  | nil => simp [popAccess]
  | cons x xs ih =>
    have step : ∀ n, ((popAccess f n xs).map fun r => (r.1, x :: r.2)) = some (a, rest) ↔
        ∃ pre post, xs = pre ++ a :: post ∧ rest = x :: (pre ++ post) ∧ f a = true ∧
          pre.countP f = n := by
      intro n
      constructor
      · intro e
        obtain ⟨⟨b, l'⟩, e₁, e₂⟩ := Option.map_eq_some_iff.mp e
        cases e₂
        obtain ⟨pre, post, h₁, h₂, h₃, h₄⟩ := ih.mp e₁
        exact ⟨pre, post, h₁, by rw [h₂], h₃, h₄⟩
      · rintro ⟨pre, post, h₁, h₂, h₃, h₄⟩
        rw [ih.mpr ⟨pre, post, h₁, rfl, h₃, h₄⟩, h₂]
        rfl
    unfold popAccess
    by_cases hx : f x = true
    · rw [if_pos hx]
      cases k with
      | zero =>
        constructor
        · intro e; cases e; exact ⟨[], xs, rfl, rfl, hx, rfl⟩
        · rintro ⟨pre, post, e, e', ha, hp⟩
          cases pre with
          | nil => cases e; rw [e']; rfl
          | cons y ys => cases e; simp [hx] at hp
      | succ n =>
        refine (step n).trans ⟨?_, ?_⟩
        · rintro ⟨pre, post, h₁, h₂, h₃, h₄⟩
          exact ⟨x :: pre, post, by rw [h₁]; rfl, h₂, h₃, by simp [hx, h₄]⟩
        · rintro ⟨pre, post, e, e', ha, hp⟩
          cases pre with
          | nil => simp at hp
          | cons y ys =>
            cases e
            exact ⟨ys, post, rfl, e', ha, by simpa [List.countP_cons, hx] using hp⟩
    · rw [if_neg hx]
      refine (step k).trans ⟨?_, ?_⟩
      · rintro ⟨pre, post, h₁, h₂, h₃, h₄⟩
        exact ⟨x :: pre, post, by rw [h₁]; rfl, h₂, h₃, by simp [hx, h₄]⟩
      · rintro ⟨pre, post, e, e', ha, hp⟩
        cases pre with
        | nil => cases e; exact absurd ha hx
        | cons y ys =>
          cases e
          exact ⟨ys, post, rfl, e', ha, by simpa [List.countP_cons, hx] using hp⟩

/-- Out of STOPPING every end is told to the block that issued the access (R195). -/
theorem heeds_of_ne {a : Access} (h : s.link.ctrl ≠ .stopping) : s.heeds a = true := by
  simp [State.heeds, h]

/-- In STOPPING the end of an access that is not of an MCQ write sequence is told to none (R195). -/
theorem heeds_stopping {a : Access} (h : s.link.ctrl = .stopping) : s.heeds a = a.kind.ofSequence := by
  simp [State.heeds, h]

/-- The end of an access of a kind: it leaves, and the block that issued it is told, if it is to be
(R185, R195). -/
theorem endAccess_inFlight {f : Access → Bool} {k : Nat} {a : Access} {rest : List Access} {ok : Bool}
    {got : Nat} {g : Access → Bool → State → State} {kind : AccessKind → Bool}
    (hf : ∀ b, f b = kind b.kind) (h : InFlight kind k s a rest) (he : EndsAs a ok got) :
    endAccess f k ok got g s =
      if s.heeds a then g a ok (s.inFlight rest) else s.inFlight rest := by
  obtain ⟨pre, post, h₁, h₂, h₃, h₄⟩ := h
  have : popAccess f k s.accesses = some (a, rest) :=
    popAccess_iff.mpr ⟨pre, post, h₁, h₂, by rw [hf]; exact h₃, by
      rw [← h₄]; exact List.countP_congr fun b _ => by rw [hf]⟩
  unfold endAccess
  rw [this]
  cases ok with
  | false => simp [State.inFlight, State.heeds]
  | true => obtain ⟨hd, hb⟩ := he rfl; simp [hd, hb, State.inFlight, State.heeds]

/-! ### The steps of the blocks -/

@[simp] theorem inside_setStray_link : (setStray s).link = { s.link with stray := true } := rfl

theorem inside_withService {p : PortId} {f : SlotId → Txn → State → State} (h : Inside r s)
    (hf : ∀ k t s, Inside r s → Inside r (f k t s)) : Inside r (withService p f s) := by
  unfold withService; split
  · split
    · exact hf _ _ _ h
    · exact h
  · exact h

theorem inside_withAttempt {p : PortId} {f : Engine → SlotId → Txn → State → State} (h : Inside r s)
    (hf : ∀ E k t s, Inside r s → Inside r (f E k t s)) : Inside r (withAttempt p f s) := by
  unfold withAttempt; split
  · exact h
  · exact inside_withService h fun _ _ _ => hf _ _ _ _

/-- The entry read of a turn: its slot is a request slot. -/
@[simp] theorem inside_issueEntryRead {q : RqId} {n : Nat} (h : Inside r s) :
    Inside r (issueEntryRead q n s) := by
  unfold issueEntryRead
  split
  · exact h
  · rename_i k e
    refine inside_issue (h.trans ?_)
    refine ⟨rfl, rfl, rfl, rfl, fun _ => id, rfl, rfl, (Inside.same (s := s)).sent, id, id, id,
      fun g => ⟨?_, ?_⟩⟩
    · exact ((inside_reserved (k := k) (Inside.same (s := s))).kinds g).1
    · intro tn htn
      cases htn
      exact freeRequestSlot_kind e

@[simp] theorem inside_fetchTurn (h : Inside r s) : Inside r (fetchTurn s) := by
  unfold fetchTurn; split
  · split
    · exact inside_issueEntryRead (inside_fetch h fun _ => id)
    · exact h
  · exact h

@[simp] theorem inside_endTurn {q : RqId} {b : Bool} (h : Inside r s) : Inside r (endTurn q b s) := by
  have g : Inside r { s with fetch := { s.fetch with turn := none } } :=
    inside_fetch h fun _ e => by cases e
  simp only [endTurn]; split <;> simp (maxDischargeDepth := 40) [g]

theorem origin_takenTxn (q : RqId) (n : CqId) (d : Bool) (now : Word) (x : Request) :
    (takenTxn q n d now x).origin = .rq q := by simp only [takenTxn]; split <;> rfl

/-- An entry is taken into the slot reserved for it. -/
theorem inside_takeEntry {tn : Turn} {e : List Byte} (h : Inside r s) (ht : s.fetch.turn = some tn) :
    Inside r (takeEntry tn e s) := by
  have g : ∀ c t, t.origin = .rq tn.q →
      Inside r ((s.modRq tn.q c).setSlot tn.slot (.txn t)) := fun c t o =>
    inside_setSlot (inside_modRq h) fun u hu k => by
      cases hu
      have := k.2 tn ht
      simp [o, Origin.isRequest, this]
  have g₂ : ∀ c t, t.origin = .rq tn.q →
      Inside r (placeOrHold tn.q tn.slot t ((s.modRq tn.q c).setSlot tn.slot (.txn t))) := by
    intro c t o
    unfold placeOrHold
    split
    · rename_i room
      simp only [Bool.and_eq_true, Bool.not_eq_true'] at room
      exact inside_insertTxn (g c t o) room.2 fun k => by
        have := k.2 tn ht
        simp [o, Origin.isRequest, this]
    · exact inside_modRq (g c t o)
  simp only [takeEntry]
  (repeat' split) <;> simp (maxDischargeDepth := 40) [g, g₂, origin_takenTxn]

@[simp] theorem inside_entryReadFails {tn : Turn} (h : Inside r s) :
    Inside r (entryReadFails tn s) := by
  simp only [entryReadFails]; split <;> simp (maxDischargeDepth := 40) [h]

@[simp] theorem inside_rqEntryEnd {ok : Bool} {e : List Byte} (h : Inside r s) :
    Inside r (rqEntryEnd ok e s) := by
  unfold rqEntryEnd; split
  · rename_i tn ht; split
    · exact inside_takeEntry h ht
    · exact inside_entryReadFails h
  · exact h

@[simp] theorem inside_statusWordEnded {a : Access} (h : Inside r s) : Inside r (statusWordEnded a s) := by
  simp only [statusWordEnded]; (repeat' split) <;> simp (maxDischargeDepth := 40) [h]

@[simp] theorem inside_rqStatusEnd {q : RqId} {a : Access} {b : Bool} (h : Inside r s) : Inside r (rqStatusEnd q a b s) := by
  simp only [rqStatusEnd]; (repeat' split) <;> simp (maxDischargeDepth := 40) [h]

theorem inside_dispatchHead {p : PortId} {k : SlotId} {t : Txn} (h : Inside r s)
    (hk : (s.port p).list.head? = some k) : Inside r (dispatchHead p k t s) := by
  have g : Inside r (s.modPort p fun P =>
      { P with inService := some k, pendingResult := none, outbound := [], inbound := [] }) :=
    inside_modPort_of h ⟨le_rfl, fun _ j hj => by cases hj; exact hk⟩
  simp only [dispatchHead]; (repeat' split) <;> simp (maxDischargeDepth := 40) [g]

@[simp] theorem inside_dispatch {p : PortId} (h : Inside r s) : Inside r (dispatch p s) := by
  simp only [dispatch]
  split
  · split
    · rename_i e
      split
      · exact inside_dispatchHead h (by rw [e]; rfl)
      · exact h
    · exact h
  · exact h

@[simp] theorem inside_stagingEnd {p : PortId} {b : Bool} {l : List Byte} (h : Inside r s) : Inside r (stagingEnd p b l s) :=
  inside_withService h fun _ _ _ h => by
    try dsimp only
    (repeat' split) <;> simp (maxDischargeDepth := 40) [h]

@[simp] theorem inside_gapExpiry {p : PortId} (h : Inside r s) : Inside r (gapExpiry p s) :=
  inside_withService h fun _ _ _ h => by
    try dsimp only
    (repeat' split) <;> simp (maxDischargeDepth := 40) [h]

@[simp] theorem inside_drainingEnd {p : PortId} {b : Bool} (h : Inside r s) : Inside r (drainingEnd p b s) :=
  inside_withService h fun _ _ _ h => by
    try dsimp only
    (repeat' split) <;> simp (maxDischargeDepth := 40) [h]

@[simp] theorem inside_deadlineEffect {k : SlotId} {t : Txn} (h : Inside r s) : Inside r (deadlineEffect k t s) := by
  simp only [deadlineEffect]; (repeat' split) <;> simp (maxDischargeDepth := 40) [h]

@[simp] theorem inside_deadlineExpiry {k : SlotId} (h : Inside r s) : Inside r (deadlineExpiry k s) := by
  simp only [deadlineExpiry]; (repeat' split) <;> simp (maxDischargeDepth := 40) [h]

@[simp] theorem inside_modEng {p : PortId} {f : Engine → Engine} (h : Inside r s) : Inside r (modEng p f s) := by
  simp only [modEng]; simp (maxDischargeDepth := 40) [h]

@[simp] theorem inside_driveLines {p : PortId} {b : Bool} (h : Inside r s) : Inside r (driveLines p b s) := by
  simp only [driveLines]; simp (maxDischargeDepth := 40) [h]

@[simp] theorem inside_storeByte {p : PortId} {n : Nat} {b : Byte} (h : Inside r s) : Inside r (storeByte p n b s) := by
  simp only [storeByte]; simp (maxDischargeDepth := 40) [h]

@[simp] theorem inside_beginAttempt {p : PortId} (h : Inside r s) : Inside r (beginAttempt p s) :=
  inside_withService h fun _ _ _ h => by
    try dsimp only
    (repeat' split) <;> simp (maxDischargeDepth := 40) [h]

@[simp] theorem inside_makeStart {p : PortId} {b : Bool} (h : Inside r s) : Inside r (makeStart p b s) :=
  inside_withAttempt h fun _ _ _ _ h => by
    try dsimp only
    (repeat' split) <;> simp (maxDischargeDepth := 40) [h]

@[simp] theorem inside_makeRestart {p : PortId} {b : Bool} (h : Inside r s) : Inside r (makeRestart p b s) :=
  inside_withAttempt h fun _ _ _ _ h => by
    try dsimp only
    (repeat' split) <;> simp (maxDischargeDepth := 40) [h]

@[simp] theorem inside_openSegment {p : PortId} (h : Inside r s) : Inside r (openSegment p s) :=
  inside_withAttempt h fun _ _ _ _ h => by
    try dsimp only
    (repeat' split) <;> simp (maxDischargeDepth := 40) [h]

@[simp] theorem inside_addressByteSent {p : PortId} {b : Bool} (h : Inside r s) : Inside r (addressByteSent p b s) :=
  inside_withAttempt h fun _ _ _ _ h => by
    try dsimp only
    (repeat' split) <;> simp (maxDischargeDepth := 40) [h]

@[simp] theorem inside_dataByteSent {p : PortId} {b : Bool} (h : Inside r s) : Inside r (dataByteSent p b s) :=
  inside_withAttempt h fun _ _ _ _ h => by
    try dsimp only
    (repeat' split) <;> simp (maxDischargeDepth := 40) [h]

@[simp] theorem inside_byteReceived {p : PortId} {b : Byte} (h : Inside r s) : Inside r (byteReceived p b s) :=
  inside_withAttempt h fun _ _ _ _ h => by
    try dsimp only
    (repeat' split) <;> simp (maxDischargeDepth := 40) [h]

@[simp] theorem inside_countReceived {p : PortId} {b : Byte} (h : Inside r s) : Inside r (countReceived p b s) :=
  inside_withAttempt h fun _ _ _ _ h => by
    try dsimp only
    (repeat' split) <;> simp (maxDischargeDepth := 40) [h]

@[simp] theorem inside_checkByteDone {p : PortId} {b : Bool} {c : Byte} (h : Inside r s) : Inside r (checkByteDone p b c s) :=
  inside_withAttempt h fun _ _ _ _ h => by
    try dsimp only
    (repeat' split) <;> simp (maxDischargeDepth := 40) [h]

@[simp] theorem inside_stopComplete {p : PortId} (h : Inside r s) : Inside r (stopComplete p s) :=
  inside_withAttempt h fun _ _ _ _ h => by
    try dsimp only
    (repeat' split) <;> simp (maxDischargeDepth := 40) [h]

@[simp] theorem inside_dropRefused {p : PortId} (h : Inside r s) : Inside r (dropRefused p s) := by
  simp only [dropRefused]; split <;> simp (maxDischargeDepth := 40) [h]

@[simp] theorem inside_arbitrationLost {p : PortId} {x : LossPlace} {b : Byte} (h : Inside r s) : Inside r (arbitrationLost p x b s) :=
  inside_withAttempt h fun _ _ _ _ h => by
    try dsimp only
    (repeat' split) <;> simp (maxDischargeDepth := 40) [h]

@[simp] theorem inside_setVerdict {p : PortId} {b : Bool} (h : Inside r s) : Inside r (setVerdict p b s) := by
  simp only [setVerdict]; simp (maxDischargeDepth := 40) [h]

@[simp] theorem inside_startEndsWait {p : PortId} (h : Inside r s) : Inside r (startEndsWait p s) := by
  simp only [startEndsWait]; (repeat' split) <;> simp (maxDischargeDepth := 40) [h]

@[simp] theorem inside_observeStart {p : PortId} (h : Inside r s) : Inside r (observeStart p s) := by
  simp only [observeStart]; (repeat' split) <;> simp (maxDischargeDepth := 40) [h]

@[simp] theorem inside_startSeen {p : PortId} (h : Inside r s) : Inside r (startSeen p s) := by
  simp only [startSeen]; (repeat' split) <;> simp (maxDischargeDepth := 40) [h]

@[simp] theorem inside_observeEnd {p : PortId} (h : Inside r s) : Inside r (observeEnd p s) := by
  simp only [observeEnd]; simp (maxDischargeDepth := 40) [h]

@[simp] theorem inside_stopSeen {p : PortId} (h : Inside r s) : Inside r (stopSeen p s) := by
  simp only [stopSeen]; (repeat' split) <;> simp (maxDischargeDepth := 40) [h]

@[simp] theorem inside_idleTimeExpiry {p : PortId} (h : Inside r s) : Inside r (idleTimeExpiry p s) := by
  simp only [idleTimeExpiry]; (repeat' split) <;> simp (maxDischargeDepth := 40) [h]

@[simp] theorem inside_clockLowExpiry {p : PortId} (h : Inside r s) : Inside r (clockLowExpiry p s) := by
  simp only [clockLowExpiry]; (repeat' split) <;> simp (maxDischargeDepth := 40) [h]

@[simp] theorem inside_stuckDataExpiry {p : PortId} (h : Inside r s) : Inside r (stuckDataExpiry p s) := by
  simp only [stuckDataExpiry]; (repeat' split) <;> simp (maxDischargeDepth := 40) [h]

@[simp] theorem inside_sclHigh {p : PortId} {b : Bool} (h : Inside r s) : Inside r (sclHigh p b s) := by
  simp only [sclHigh]; (repeat' split) <;> simp (maxDischargeDepth := 40) [h]

@[simp] theorem inside_pulseEnd {p : PortId} {b : Bool} (h : Inside r s) : Inside r (pulseEnd p b s) := by
  simp only [pulseEnd]; (repeat' split) <;> simp (maxDischargeDepth := 40) [h]

@[simp] theorem inside_recoveryStopEnd {p : PortId} {b c : Bool} (h : Inside r s) : Inside r (recoveryStopEnd p b c s) := by
  simp only [recoveryStopEnd]; (repeat' split) <;> simp (maxDischargeDepth := 40) [h]

@[simp] theorem inside_finalWaitEnd {p : PortId} (h : Inside r s) : Inside r (finalWaitEnd p s) := by
  simp only [finalWaitEnd]; (repeat' split) <;> simp (maxDischargeDepth := 40) [h]

@[simp] theorem inside_restartWaitEnd {p : PortId} (h : Inside r s) : Inside r (restartWaitEnd p s) := by
  simp only [restartWaitEnd]; (repeat' split) <;> simp (maxDischargeDepth := 40) [h]

@[simp] theorem inside_limitExpiry {p : PortId} {b : Bool} (h : Inside r s) : Inside r (limitExpiry p b s) := by
  simp only [limitExpiry]; (repeat' split) <;> simp (maxDischargeDepth := 40) [h]

theorem length_pickEntry {f : HoldEntry → Bool} {l : List HoldEntry} {e : HoldEntry}
    {rest : List HoldEntry} (h : pickEntry f l = some (e, rest)) : l.length = rest.length + 1 := by
  induction l generalizing rest with
  | nil => cases h
  | cons x xs ih =>
    unfold pickEntry at h
    split at h
    · cases h; rfl
    · simp only [Option.map_eq_some_iff] at h
      obtain ⟨⟨y, ys⟩, h₁, h₂⟩ := h
      cases h₂
      simp [ih h₁]

@[simp] theorem inside_selectRecord (h : Inside r s) : Inside r (selectRecord s) := by
  simp only [selectRecord]
  split
  · split
    · rename_i e
      have := length_pickEntry e
      exact inside_handOut (inside_issue (inside_comp h (by simp only; omega)))
    · exact h
  · exact h

@[simp] theorem inside_recordEnd {b : Bool} (h : Inside r s) : Inside r (recordEnd b s) := by
  simp only [recordEnd]
  split
  · rename_i e _
    split
    · have g : Inside r ((discard e s).modCq e.cq fun c => { c with produced := c.produced + 1 }) := by
        simp (maxDischargeDepth := 40) [h]
      exact inside_writeCqStatus (inside_comp g le_rfl)
    · have g : Inside r { s with comp := { s.comp with writer := .idle } } := inside_comp h le_rfl
      split <;> simp (maxDischargeDepth := 40) [g]
  · exact h

@[simp] theorem inside_recordStatusEnd {n : CqId} {b : Bool} (h : Inside r s) :
    Inside r (recordStatusEnd n b s) := by
  simp only [recordStatusEnd]
  split
  · have g : Inside r { s with comp := { s.comp with writer := .idle } } := inside_comp h le_rfl
    split <;> simp (maxDischargeDepth := 40) [g]
  · exact h

@[simp] theorem inside_cqStatusEnd {n : CqId} {w : CqStatusFor} {a : Access} {b : Bool} (h : Inside r s) : Inside r (cqStatusEnd n w a b s) := by
  simp only [cqStatusEnd]; (repeat' split) <;> simp (maxDischargeDepth := 40) [h]

@[simp] theorem inside_coalescingExpiry {n : CqId} (h : Inside r s) : Inside r (coalescingExpiry n s) := by
  simp only [coalescingExpiry]; (repeat' split) <;> simp (maxDischargeDepth := 40) [h]

@[simp] theorem inside_addressSeen {p : PortId} {b : Byte} (h : Inside r s) : Inside r (addressSeen p b s) := by
  simp only [addressSeen]; (repeat' split) <;> simp (maxDischargeDepth := 40) [h]

@[simp] theorem inside_imageWritten {p : PortId} {b : Byte} (h : Inside r s) : Inside r (imageWritten p b s) := by
  simp only [imageWritten]; (repeat' split) <;> simp (maxDischargeDepth := 40) [h]

@[simp] theorem inside_mailboxWritten {p : PortId} {b : Byte} (h : Inside r s) : Inside r (mailboxWritten p b s) := by
  simp only [mailboxWritten]; (repeat' split) <;> simp (maxDischargeDepth := 40) [h]

@[simp] theorem inside_sendTarget {p : PortId} {b : Byte} (h : Inside r s) : Inside r (sendTarget p b s) := by
  simp only [sendTarget]; simp (maxDischargeDepth := 40) [h]

@[simp] theorem inside_imageSent {p : PortId} {b : Bool} (h : Inside r s) : Inside r (imageSent p b s) := by
  simp only [imageSent]; (repeat' split) <;> simp (maxDischargeDepth := 40) [h]

@[simp] theorem inside_replySent {p : PortId} {b : Bool} (h : Inside r s) : Inside r (replySent p b s) := by
  simp only [replySent]; (repeat' split) <;> simp (maxDischargeDepth := 40) [h]

@[simp] theorem inside_readConflict {p : PortId} (h : Inside r s) : Inside r (readConflict p s) := by
  simp only [readConflict]; (repeat' split) <;> simp (maxDischargeDepth := 40) [h]

@[simp] theorem inside_transferEnd {p : PortId} {e : TransferEnding} (h : Inside r s) : Inside r (transferEnd p e s) := by
  simp only [transferEnd]; (repeat' split) <;> simp (maxDischargeDepth := 40) [h]

@[simp] theorem inside_stretchExpiry {p : PortId} (h : Inside r s) : Inside r (stretchExpiry p s) := by
  simp only [stretchExpiry]; (repeat' split) <;> simp (maxDischargeDepth := 40) [h]

@[simp] theorem inside_setAtHand {p : PortId} {x : AtHand} (h : Inside r s) : Inside r (setAtHand p x s) := by
  simp only [setAtHand]; simp (maxDischargeDepth := 40) [h]

@[simp] theorem inside_startFetch (h : Inside r s) : Inside r (startFetch s) := by
  simp only [startFetch]; (repeat' split) <;> simp (maxDischargeDepth := 40) [h]

@[simp] theorem inside_wantAgain {p : PortId} (h : Inside r s) : Inside r (wantAgain p s) := by
  simp only [wantAgain]; (repeat' split) <;> simp (maxDischargeDepth := 40) [h]

@[simp] theorem inside_deliver {p : PortId} {b : RxBuffer} (h : Inside r s) : Inside r (deliver p b s) := by
  simp only [deliver]; (repeat' split) <;> simp (maxDischargeDepth := 40) [h]

@[simp] theorem inside_badCapacity {p : PortId} {b : RxBuffer} (h : Inside r s) : Inside r (badCapacity p b s) := by
  simp only [badCapacity]; simp (maxDischargeDepth := 40) [h]

@[simp] theorem inside_fetchEnd {b : Bool} {l : List Byte} (h : Inside r s) : Inside r (fetchEnd b l s) := by
  simp only [fetchEnd]; (repeat' split) <;> simp (maxDischargeDepth := 40) [h]

@[simp] theorem inside_rxStatusEnd {a : Access} {b : Bool} (h : Inside r s) : Inside r (rxStatusEnd a b s) := by
  simp only [rxStatusEnd]; (repeat' split) <;> simp (maxDischargeDepth := 40) [h]

@[simp] theorem inside_takeTick {b : BitVec 4} (h : Inside r s) : Inside r (takeTick b s) := by
  simp only [takeTick]; (repeat' split) <;> simp (maxDischargeDepth := 40) [h]

@[simp] theorem inside_popDue (h : Inside r s) : Inside r (popDue s) := by
  simp only [popDue]; simp (maxDischargeDepth := 40) [h]

@[simp] theorem inside_periodicExpiry {t : TrigId} (h : Inside r s) : Inside r (periodicExpiry t s) := by
  simp only [periodicExpiry]; (repeat' split) <;> simp (maxDischargeDepth := 40) [h]

@[simp] theorem inside_setAlert {p : PortId} {b : Bool} (h : Inside r s) : Inside r (setAlert p b s) := by
  simp only [setAlert]; simp (maxDischargeDepth := 40) [h]

@[simp] theorem inside_afterHoldoff {t : TrigId} {b : Bool} {x : Word} (h : Inside r s) : Inside r (afterHoldoff t b x s) := by
  simp only [afterHoldoff]; (repeat' split) <;> simp (maxDischargeDepth := 40) [h]

@[simp] theorem inside_holdoffEnd {t : TrigId} {b : Bool} (h : Inside r s) : Inside r (holdoffEnd t b s) := by
  simp only [holdoffEnd]; (repeat' split) <;> simp (maxDischargeDepth := 40) [h]

@[simp] theorem inside_alertEdge {p : PortId} {t : TrigId} (h : Inside r s) : Inside r (alertEdge p s t) := by
  simp only [alertEdge]; (repeat' split) <;> simp (maxDischargeDepth := 40) [h]

@[simp] theorem inside_takeMqEntry (h : Inside r s) : Inside r (takeMqEntry s) := by
  simp only [takeMqEntry]; (repeat' split) <;> simp (maxDischargeDepth := 40) [h]

@[simp] theorem inside_writeMcqRecord {l : List Byte} {b : Bool} (h : Inside r s) : Inside r (writeMcqRecord l b s) := by
  simp only [writeMcqRecord]; simp (maxDischargeDepth := 40) [h]

@[simp] theorem inside_beginCompletion (h : Inside r s) : Inside r (beginCompletion s) := by
  simp only [beginCompletion]; (repeat' split) <;> simp (maxDischargeDepth := 40) [h]

@[simp] theorem inside_beginEvent {l : Latch} (h : Inside r s) : Inside r (beginEvent l s) := by
  simp only [beginEvent]; (repeat' split) <;> simp (maxDischargeDepth := 40) [h]

/-! ### The management commands -/

@[simp] theorem inside_reply {x : Status} (h : Inside r s) : Inside r (reply x s) := by
  simp only [reply]; simp (maxDischargeDepth := 40) [h]

@[simp] theorem inside_writeBuffer {e l : List Byte} (h : Inside r s) : Inside r (writeBuffer e l s) := by
  simp only [writeBuffer]; simp (maxDischargeDepth := 40) [h]

@[simp] theorem inside_readBuffer {e : List Byte} {n : Nat} (h : Inside r s) : Inside r (readBuffer e n s) := by
  simp only [readBuffer]; simp (maxDischargeDepth := 40) [h]

theorem inside_runCommand {op : Byte} {f : List Byte → State → State} (h : Inside r s)
    (hf : ∀ e s, Inside r s → Inside r (f e s)) : Inside r (runCommand op f s) :=
  inside_whenRunning h fun s h => by
    split
    · split
      · exact hf _ _ h
      · exact h
    · exact h

@[simp] theorem inside_createCq {e : List Byte} (h : Inside r s) : Inside r (createCq e s) := by
  simp only [createCq]; (repeat' split) <;> simp (maxDischargeDepth := 40) [h]

@[simp] theorem inside_deleteCq {e : List Byte} (h : Inside r s) : Inside r (deleteCq e s) := by
  simp only [deleteCq]; (repeat' split) <;> simp (maxDischargeDepth := 40) [h]

@[simp] theorem inside_createRq {e : List Byte} (h : Inside r s) : Inside r (createRq e s) := by
  simp only [createRq]; (repeat' split) <;> simp (maxDischargeDepth := 40) [h]

@[simp] theorem inside_flush {k : SlotId} {t : Txn} (h : Inside r s) : Inside r (flush k t s) := by
  simp only [flush]; (repeat' split) <;> simp (maxDischargeDepth := 40) [h]

@[simp] theorem inside_flushSlot {q : RqId} {k : SlotId} (h : Inside r s) : Inside r (flushSlot q s k) := by
  simp only [flushSlot]; (repeat' split) <;> simp (maxDischargeDepth := 40) [h]

@[simp] theorem inside_deleteRq {e : List Byte} (h : Inside r s) : Inside r (deleteRq e s) := by
  simp only [deleteRq]
  (repeat' split) <;> try simp (maxDischargeDepth := 40) [h]
  exact inside_deletionEnd (inside_foldl (fun _ _ _ => inside_flushSlot) _
    (by simp (maxDischargeDepth := 40) [h]))

@[simp] theorem inside_configure {e : List Byte} (h : Inside r s) : Inside r (configure e s) := by
  have g : ∀ p c, Inside r (s.modPort p (Port.configured c)) := fun p c => inside_modPort h (fun _ => rfl) fun _ => rfl
  simp only [configure]; (repeat' split) <;> simp (maxDischargeDepth := 40) [h, g]

@[simp] theorem inside_enable {e : List Byte} (h : Inside r s) : Inside r (enable e s) := by
  have g : ∀ p c, Inside r (s.modPort p (Port.enabled c)) := fun p c => inside_modPort h (fun _ => rfl) fun _ => rfl
  simp only [enable]; (repeat' split) <;> simp (maxDischargeDepth := 40) [h, g]

@[simp] theorem inside_markOff {p : PortId} {k : SlotId} (h : Inside r s) : Inside r (markOff p s k) := by
  simp only [markOff]; (repeat' split) <;> simp (maxDischargeDepth := 40) [h]

@[simp] theorem inside_disableService {p : PortId} {k : SlotId} {t : Txn} (h : Inside r s) : Inside r (disableService p k t s) := by
  simp only [disableService]; (repeat' split) <;> simp (maxDischargeDepth := 40) [h]

@[simp] theorem inside_disable {e : List Byte} (h : Inside r s) : Inside r (disable e s) := by
  simp only [disable]
  split
  · exact inside_completeCommand h
  · rename_i p _
    split
    · exact inside_completeCommand h
    · have g : Inside r (allSlots.foldl (markOff p) ((setCommandPhase (.port p .disable) s).modPort p
          fun P => { P with disablePending := true })) :=
        inside_foldl (fun _ _ _ => inside_markOff) _ (by simp (maxDischargeDepth := 40) [h])
      split
      · exact inside_tellDisable g
      · exact inside_withService g fun _ _ _ => inside_disableService

@[simp] theorem inside_restart {e : List Byte} (h : Inside r s) : Inside r (restart e s) := by
  simp only [restart]; (repeat' split) <;> simp (maxDischargeDepth := 40) [h]

@[simp] theorem inside_setRing {e : List Byte} (h : Inside r s) : Inside r (setRing e s) := by
  simp only [setRing]; (repeat' split) <;> simp (maxDischargeDepth := 40) [h]

@[simp] theorem inside_writeImage {e : List Byte} (h : Inside r s) : Inside r (writeImage e s) := by
  simp only [writeImage]; (repeat' split) <;> simp (maxDischargeDepth := 40) [h]

@[simp] theorem inside_imageRead {e l : List Byte} (h : Inside r s) : Inside r (imageRead e l s) := by
  simp only [imageRead]; (repeat' split) <;> simp (maxDischargeDepth := 40) [h]

@[simp] theorem inside_setReply {e : List Byte} (h : Inside r s) : Inside r (setReply e s) := by
  simp only [setReply]; (repeat' split) <;> simp (maxDischargeDepth := 40) [h]

@[simp] theorem inside_defineTrigger {e : List Byte} (h : Inside r s) : Inside r (defineTrigger e s) := by
  simp only [defineTrigger]; (repeat' split) <;> simp (maxDischargeDepth := 40) [h]

@[simp] theorem inside_definitionRead {e l : List Byte} (h : Inside r s) : Inside r (definitionRead e l s) := by
  simp only [definitionRead]; (repeat' split) <;> simp (maxDischargeDepth := 40) [h]

@[simp] theorem inside_armNamed {m : Word} {t : TrigId} (h : Inside r s) : Inside r (armNamed m s t) := by
  simp only [armNamed]; (repeat' split) <;> simp (maxDischargeDepth := 40) [h]

@[simp] theorem inside_fireLevel {l : List TrigId} {t : TrigId} (h : Inside r s) : Inside r (fireLevel l s t) := by
  simp only [fireLevel]; (repeat' split) <;> simp (maxDischargeDepth := 40) [h]

@[simp] theorem inside_disarmNamed {m : Word} {t : TrigId} (h : Inside r s) : Inside r (disarmNamed m s t) := by
  simp only [disarmNamed]; (repeat' split) <;> simp (maxDischargeDepth := 40) [h]

@[simp] theorem inside_armTriggers {b : BitVec 4} {e : List Byte} (h : Inside r s) :
    Inside r (armTriggers b e s) := by
  simp only [armTriggers]
  split
  · exact inside_completeCommand h
  · refine inside_completeCommand (inside_foldl (fun _ _ _ => inside_fireLevel) _ ?_)
    have g := inside_foldl (fun r s a => inside_armNamed (r := r) (s := s) (m := rd32 e 8) (t := a))
      allTriggers (inside_trig (v := { s.trig with alertLow := alertLevels b }) h)
    split
    · exact inside_trig g
    · exact g

@[simp] theorem inside_disarmTriggers {e : List Byte} (h : Inside r s) :
    Inside r (disarmTriggers e s) :=
  inside_checkInstances (inside_setCommandPhase (inside_foldl (fun _ _ _ => inside_disarmNamed) _ h))

@[simp] theorem inside_clearTrigger {e : List Byte} (h : Inside r s) : Inside r (clearTrigger e s) := by
  simp only [clearTrigger]; (repeat' split) <;> simp (maxDischargeDepth := 40) [h]

@[simp] theorem inside_queryTrigger {e : List Byte} (h : Inside r s) : Inside r (queryTrigger e s) := by
  simp only [queryTrigger]; (repeat' split) <;> simp (maxDischargeDepth := 40) [h]

@[simp] theorem inside_setTick {e : List Byte} (h : Inside r s) : Inside r (setTick e s) := by
  simp only [setTick]; (repeat' split) <;> simp (maxDischargeDepth := 40) [h]

@[simp] theorem inside_strike {k : SlotId} {t : Txn} (h : Inside r s) : Inside r (strike k t s) := by
  simp only [strike]; (repeat' split) <;> simp (maxDischargeDepth := 40) [h]

@[simp] theorem inside_strikeSlot {q : RqId} {x : Half} {k : SlotId} (h : Inside r s) : Inside r (strikeSlot q x s k) := by
  simp only [strikeSlot]; (repeat' split) <;> simp (maxDischargeDepth := 40) [h]

@[simp] theorem inside_abortTag {e : List Byte} (h : Inside r s) : Inside r (abortTag e s) := by
  simp only [abortTag]
  split
  · exact inside_completeCommand h
  · split
    · exact inside_completeCommand h
    · exact inside_completeCommand (inside_foldl (fun _ _ _ => inside_strikeSlot) _ h)

@[simp] theorem inside_readStatistics {e : List Byte} (h : Inside r s) : Inside r (readStatistics e s) := by
  simp only [readStatistics]; (repeat' split) <;> simp (maxDischargeDepth := 40) [h]

@[simp] theorem inside_cmdReadEnd {b : Bool} {l : List Byte} (h : Inside r s) : Inside r (cmdReadEnd b l s) := by
  simp only [cmdReadEnd]; (repeat' split) <;> simp (maxDischargeDepth := 40) [h]

@[simp] theorem inside_cmdWriteEnd {b : Bool} (h : Inside r s) : Inside r (cmdWriteEnd b s) := by
  simp only [cmdWriteEnd]; (repeat' split) <;> simp (maxDischargeDepth := 40) [h]

end Sys2Proof.Machine
end

