-- ==== Sys2Proof/Tests/Slice0.lean ====
section
/-! SUPPORT. Tests: the well-formedness smoke, values and single steps whose expected results the spec gives
(each names where), and for every obligation with hypotheses a witness that they can be met, clause by
clause. -/

open Sys2Proof Sys2Proof.Machine

namespace Sys2Proof.Tests

/-! ### The well-formedness smoke: a term each check refuses, and one at the bound it takes -/

theorem test_registerWrite_bytes :
    (Instr.registerWrite 0x018 0 0).wellFormed = false ∧
    (Instr.registerWrite 0x018 5 0).wellFormed = false ∧
    (Instr.registerWrite 0x018 1 0).wellFormed = true ∧
    (Instr.registerWrite 0x018 4 0).wellFormed = true := by decide

theorem test_stagingRead_bytes :
    (Instr.stagingReadEnd 0 true (List.replicate 4097 0)).wellFormed = false ∧
    (Instr.stagingReadEnd 0 true (List.replicate 4096 0)).wellFormed = true := by
  simp only [Instr.wellFormed, List.length_replicate]; decide

theorem test_commandAccess_bytes :
    (Instr.commandHostAccessEnd true (List.replicate 257 0)).wellFormed = false ∧
    (Instr.commandHostAccessEnd true (List.replicate 256 0)).wellFormed = true := by
  simp only [Instr.wellFormed, List.length_replicate]; decide

/-- No row of the table gives bits, so no word spells a command. -/
theorem test_decode (n w : Nat) : decodeTableWord n w = none ∧
    ∀ s : State, s.withFetchWord n w = s := ⟨rfl, fun _ => rfl⟩

/-! ### Values the spec gives -/

/-- The worked check value of chapter 1: 90, 05, 91, 1A, 2B give F9, FA, 16, 24, 2D. -/
theorem test_crc : crcByte 0 0x90 = 0xF9 ∧ crcByte 0xF9 0x05 = 0xFA ∧ crcByte 0xFA 0x91 = 0x16 ∧
    crcByte 0x16 0x1A = 0x24 ∧ crcByte 0x24 0x2B = 0x2D := by decide

/-- IDR reads A5D32402h, IMR FFh after a reset (section 12.7). -/
theorem test_registers : readRegister 0 State.reset = 0xA5D32402 ∧
    readRegister 0x01C State.reset = 0xFF := by decide

/-- Fields are little-endian (R199). -/
theorem test_byte_order : rd64 [1, 2, 3, 4, 5, 6, 7, 8] 0 = 0x0807060504030201 ∧
    le32 0x04030201 = [1, 2, 3, 4] := by decide

/-! ### States to test on -/

/-- A controller in a state, with bus mastering enabled, one second after its reset. -/
def at_ (c : Ctrl) : State :=
  { State.reset with
    timebase := 1000000,
    link := { Link.reset with
      ctrl := c, en := c == .starting || c == .running || c == .halted, busMaster := true } }

def up : State := at_ .running
def halted : State := at_ .halted

/-- A host access in flight, issued at 0. -/
def access (k : AccessKind) (x : Xfer) (forCommand : Bool) : Access := ⟨k, x, 0, forCommand, false, false⟩
def flying (s : State) (a : Access) : State := { s with accesses := [a] }

/-- A segment, a request for port 0 and its transaction, taken from RQ0 for CQ0. -/
def seg (k : SegKind) (join : Bool) (n : Half) : Segment := ⟨k, 0x48, join, false, 0, n⟩
def request (segs : List Segment) : Request :=
  { tag := 7, port := 0, fence := false, urgent := false, notify := false, suppress := false,
    chk := true, nseg := byteN segs.length, arbRetries := 1, nackRetries := 1, retryGap := 0,
    deadline := 1, buffer := 0x1000, segs := segs }
def txn (segs : List Segment) (x : TxnState) : Txn :=
  { req := request segs, origin := .rq 0, port := 0, cq := 0, state := x, mark := none, takenAt := 0,
    arbUsed := 0, nackUsed := 0, attempts := 0, started := none, gapFrom := 0, result := .ok,
    detail := 0, segIndex := 0, writeCount := 0, readCount := 0, endTime := 0, trig := none }

/-- The read of two bytes from register 05h of chapter 4's worked example. -/
def worked : List Segment := [seg .write true 1, seg .read false 2]

/-- Port 0 in a state, with the transaction of slot 0 in service and an engine. -/
def serving (c : Ctrl) (segs : List Segment) (x : TxnState) (ps : PortState) (E : Engine) : State :=
  (((at_ c).setSlot 0 (.txn (txn segs x))).modPort 0 fun P =>
    { P with
      state := ps, inService := some 0, list := [0], eng := E, busFree := true,
      outbound := [0x05] }).modCq 0 fun q => { q with state := .running, size := 4 }

def engine (ph : Phase) (segment : Nat) (crc : Byte) : Engine :=
  { Engine.reset with phase := ph, segment := segment, crc := crc }

/-- Whether a step goes on to a state that `f` holds of. -/
def after? (o : Host.Outcome State Fault Refusal) (f : State → Bool) : Bool :=
  match o with
  | .next s => f s
  | _ => false

/-- The engine after a step of port 0. -/
def engineAfter (o : Host.Outcome State Fault Refusal) : Option (Phase × Nat × Nat × Nat × Byte) :=
  match o with
  | .next s => let E := (s.port 0).eng; some (E.phase, E.segment, E.writeCount, E.readCount, E.crc)
  | _ => none

/-! ### Steps of the worked attempt (chapter 4, "one attempt, phase by phase") -/

theorem test_attemptBegin :
    engineAfter (exec (.attemptBegin 0) (serving .running worked .ready .idle Engine.reset)) =
      some (.opening, 0, 0, 0, 0x00) := by decide
theorem test_masterStart :
    engineAfter (exec (.masterStart 0 true)
      (serving .running worked .active .master (engine .opening 0 0))) =
      some (.addressing, 0, 0, 0, 0x00) := by decide
theorem test_masterAddressByte :
    engineAfter (exec (.masterAddressByte 0 true)
      (serving .running worked .active .master (engine .addressing 0 0))) =
      some (.sending, 0, 0, 0, 0xF9) ∧
    engineAfter (exec (.masterAddressByte 0 true)
      (serving .running worked .active .master
        { engine .addressing 1 0xFA with writeCount := 1 })) =
      some (.receiving, 1, 1, 0, 0x16) := by decide
theorem test_masterDataByteSent :
    engineAfter (exec (.masterDataByteSent 0 true)
      (serving .running worked .active .master (engine .sending 0 0xF9))) =
      some (.opening, 0, 1, 0, 0xFA) := by decide
theorem test_repeatedStart :
    engineAfter (exec (.repeatedStart 0 true)
      (serving .running worked .active .master
        { engine .opening 0 0xFA with writeCount := 1, restart := true })) =
      some (.addressing, 1, 1, 0, 0xFA) := by decide
theorem test_masterByteReceived :
    engineAfter (exec (.masterByteReceived 0 0x1A)
      (serving .running worked .active .master
        { engine .receiving 1 0x16 with writeCount := 1 })) =
      some (.receiving, 1, 1, 1, 0x24) ∧
    engineAfter (exec (.masterByteReceived 0 0x2B)
      (serving .running worked .active .master
        { engine .receiving 1 0x24 with writeCount := 1, readCount := 1, bytePos := 1 })) =
      some (.checking, 1, 1, 2, 0x2D) := by decide
theorem test_checkByte :
    engineAfter (exec (.checkByte 0 true 0x2D)
      (serving .running worked .active .master
        { engine .checking 1 0x2D with writeCount := 1, readCount := 2 })) =
      some (.closing, 1, 1, 2, 0x2D) := by decide

/-! ### Urgent insertion (chapter 3's worked example, its steps 1, 3 and 5) -/

/-- Port 1 with a list of transactions in slots 1, 2, …, given by queue and URGENT; the first is in
service. -/
def listed (l : List (RqId × Bool)) : State :=
  let slots := (List.range l.length).map fun i => (Fin.ofNat 64 (i + 1), l.getD i (0, false))
  (slots.foldl (fun s x => s.setSlot x.1 (.txn
      { txn [] .waiting with
        origin := .rq x.2.1, port := 1, req := { request [] with urgent := x.2.2 } })) up).modPort 1
    fun P => { P with list := slots.map Prod.fst, inService := some 1 }
def inserted (q : RqId) (l : List (RqId × Bool)) : List SlotId :=
  ((insertTxn 20 { txn [] .held with
    origin := .rq q, port := 1, req := { request [] with urgent := true } } (listed l)).port 1).list

theorem test_urgent_step1 :
    inserted 3 [(0, false), (0, false), (1, false), (2, false), (1, false)] = [1, 20, 2, 3, 4, 5] := by
  decide
theorem test_urgent_step3 :
    inserted 1 [(0, false), (3, true), (0, false), (1, false), (2, false), (1, false)] =
      [1, 2, 3, 4, 5, 6, 20] := by decide
theorem test_urgent_step5 :
    inserted 2 [(0, false), (3, true), (0, false), (1, false), (2, false), (1, false), (1, true),
      (2, false)] = [1, 2, 3, 4, 5, 6, 7, 8, 20] := by decide

/-! ### Coalescing (chapter 6's worked example, step 3 and the expiry) -/

/-- CQ1 with threshold 1: its record announced, ISR bit 2 is set; the timer of CQ0 at L sets bit 1. -/
theorem test_threshold :
    (announce 1 false (up.modCq 1 fun c => { c with k := 1, l := 100 })).ints.isr = 0x04 := by decide
theorem test_coalescingTimerExpiry :
    after? (exec (.coalescingTimerExpiry 0) (up.modCq 0 fun c =>
      { c with k := 3, l := 100, unannounced := 2, timer := some 999900 })) (fun s =>
      s.ints.isr == 0x02 && (s.cq 0).unannounced == 0 && (s.cq 0).timer.isNone) = true := by decide

/-! ### Triggers (chapter 7's worked example, 2 ms and 8 ms) -/

/-- T4, periodic with period 3, due at a tick of now. -/
def poll (outstanding : Bool) (sequence : Half) : State :=
  let s := (up.modTrigger 4 fun E =>
    { E with
      state := .armed, template := some (request worked), period := 3, reportSkips := true,
      outstanding := outstanding, sequence := sequence }).modCq 0 fun c => { c with state := .running }
  { s with trig := { s.trig with tickDue := [4], tickTime := 999999 } }

theorem test_periodicExpiry :
    after? (exec (.periodicExpiry 4) (poll false 0)) (fun s =>
      let E := s.trigger 4
      E.downCounter == 3 && E.outstanding && E.sequence == 1 && E.skips == 0 &&
        (s.port 0).list == [56]) = true ∧
    after? (exec (.periodicExpiry 4) (poll true 2)) (fun s =>
      let E := s.trigger 4
      E.downCounter == 3 && E.outstanding && E.sequence == 3 && E.skips == 1 && E.reports == 1 &&
        s.comp.holding.length == 1) = true := by decide

/-! ### Witnesses: the machine, resets, start and stop -/

/-- One access in flight is the one that ends, and ends as it does. -/
theorem flies {kind : AccessKind → Bool} {s : State} {a : Access} (h : kind a.kind = true) :
    InFlight kind 0 (flying s a) a [] := ⟨[], [], rfl, rfl, h, rfl⟩

theorem witness_StepRunsFrontCommand :
    State.pending { up with pending := [.mqEntryTake] } = .mqEntryTake :: [] := rfl

theorem witness_IdleStepPassesOneMicrosecond :
    (up.pending = [] ∧ up.link.linkReset = false) ∧
    State.pending { up with link := { up.link with linkReset := true } } = [] := by decide

theorem witness_RegistersStayWellFormed :
    RegistersWellFormed up ∧ ∃ t, step up = .next t :=
  ⟨by unfold RegistersWellFormed; decide, _, rfl⟩

theorem witness_ControllerMovesAsGiven :
    ∃ t, exec .controllerEnable (at_ .disabled) = .next t ∧ t.link.ctrl = .starting := ⟨_, rfl, rfl⟩

theorem witness_RegistersChangeAsGiven :
    ∃ t, exec (.coalescingTimerExpiry 0) (raiseIsr 2 up) = .next t ∧
      (raiseIsr 2 up).ints.isr.getLsbD 2 = true := ⟨_, rfl, rfl⟩

theorem witness_OneMessagePerRise :
    ∃ t, exec (.imrWrite 0) (raiseIsr 2 up) = .next t ∧ t.ints.sent = 1 ∧
      (Instr.imrWrite 0 ≠ .powerOnReset ∧ Instr.imrWrite 0 ≠ .linkReset ∧
        (∀ en, Instr.imrWrite 0 ≠ .softReset en) ∧
        ∀ v : Word, v.getLsbD 1 = true → Instr.imrWrite 0 ≠ .registerWrite 0x004 4 v) :=
  ⟨_, rfl, by decide, by simp⟩

theorem witness_ResetsClearThePart :
    Awake up ∧ State.link { up with link := { up.link with linkReset := true } } =
      { up.link with linkReset := true } ∧ Instr.mqEntryTake ≠ .powerOnReset ∧
      Instr.mqEntryTake ≠ .linkReset ∧ Instr.mqEntryTake ≠ .linkResetDeasserted := by
  refine ⟨rfl, rfl, ?_, ?_, ?_⟩ <;> simp

theorem witness_GcrWrites :
    Awake up ∧ (2 : Word).getLsbD 1 = true ∧ (1 : Word).getLsbD 1 = false ∧ (1 : Word).getLsbD 0 = true ∧
    (at_ .disabled).link.ctrl = .disabled ∧ up.link.ctrl ≠ .disabled ∧
    (0 : Word).getLsbD 1 = false ∧ (0 : Word).getLsbD 0 = false ∧ (at_ .starting).link.ctrl = .starting ∧
    halted.link.ctrl = .halted ∧ (at_ .stopping).link.ctrl = .stopping ∧ RegistersWellFormed up :=
  ⟨rfl, rfl, rfl, rfl, rfl, by decide, rfl, rfl, rfl, rfl, rfl, by unfold RegistersWellFormed; decide⟩

theorem witness_EnableStarts :
    Awake (at_ .disabled) ∧ (at_ .disabled).link.ctrl = .disabled ∧ up.link.ctrl ≠ .disabled := by
  decide

theorem witness_StopLeavesTheBuses :
    Awake up ∧ up.link.ctrl = .running ∧ (at_ .disabled).link.ctrl = .disabled := by decide

theorem witness_StopCompletes :
    Awake (at_ .stopping) ∧ ((at_ .stopping).link.ctrl = .stopping ∧ (at_ .stopping).accesses = [] ∧
      ∀ p, ((at_ .stopping).port p).sclDriven = false ∧
        ((at_ .stopping).port p).sdaDriven = false ∧ ((at_ .stopping).port p).eng.phase = .none) ∧
    up.link.ctrl ≠ .stopping := by decide

/-- A valid header: both sizes 4, both bases 0. -/
def header : Vector Byte 64 := Vector.ofFn fun i => if i.val = 16 || i.val = 18 then 4 else 0
def headerAccess : Access := access .header (.read [(0, 64)]) false
def statusAccess (k : AccessKind) (c : Bool) : Access := access k (.write [(0x40, [])]) c

theorem witness_HeaderReadDecidesTheStart :
    (Awake (flying (at_ .starting) headerAccess) ∧
      (flying (at_ .starting) headerAccess).link.ctrl = .starting ∧
      InFlight (· == .header) 0 (flying (at_ .starting) headerAccess) headerAccess [] ∧
      EndsAs headerAccess true 64 ∧ EndsAs headerAccess false 64 ∧
      RestsUntilRunning (flying (at_ .starting) headerAccess) ∧ headerOk header.toList = true ∧
      headerOk (Vector.replicate 64 (0 : Byte)).toList = false) ∧
    InFlight (· == .controllerStatus) 0 (flying up (statusAccess .controllerStatus false))
      (statusAccess .controllerStatus false) [] ∧
    EndsAs (statusAccess .controllerStatus false) true 0 :=
  ⟨⟨rfl, rfl, flies rfl, by unfold EndsAs; decide, by unfold EndsAs; decide,
      fun _ => ⟨rfl, fun a h => by rw [List.mem_singleton.mp h]; rfl⟩, by decide, by decide⟩,
    flies rfl, by unfold EndsAs; decide⟩

/-! ### Witnesses: registers and notifies -/

theorem witness_RegistersAreWritten :
    Awake up ∧ (3 : Nat) ≠ 4 ∧
      (0x020 : BitVec 12) ∉ [0x004#12, 0x008#12, 0x00C#12, 0x010#12, 0x014#12, 0x018#12, 0x01C#12] ∧
      (0x10000 : Word).getLsbD 16 = true ∧ (0xFFFF : Word).getLsbD 16 = false ∧
      ((0x00090001 : Word).getLsbD 24 = false ∧ (0x00090001 : Word).extractLsb' 16 8 = (9 : Byte)) ∧
      ((0x00080001 : Word).extractLsb' 16 8 : Byte).toNat = (7 : RqId).val + 1 ∧
      ((0x01040001 : Word).getLsbD 24 = true ∧
        ((0x01040001 : Word).extractLsb' 16 8 : Byte).toNat = (3 : CqId).val + 1) := by decide

/-- The rings of the tests: MQ and MCQ of 4, RQ0, CQ0 and the receive ring RUNNING with size 4. -/
def rings (c : Ctrl) : State :=
  let s := { at_ c with
    mgmt := { Mgmt.reset with mqSize := 4, mcqSize := 4, mcqProduced := 2 },
    rx := { RxRing.reset with state := .running, size := 4 } }
  (s.modRq 0 fun q => { q with state := .running, size := 4 }).modCq 0
    fun q => { q with state := .running, size := 4, produced := 2 }

theorem witness_NotifiesAreStored :
    (Awake (at_ .disabled) ∧ ¬ Live (at_ .disabled)) ∧
    (false = false ∧ 9 < (10 : Byte).toNat) ∧ (true = true ∧ 4 < (5 : Byte).toNat) ∧
    ((up.rq 0).state = .absent ∧ (up.cq 0).state = .absent ∧ up.rx.state = .absent) ∧
    Live (rings .running) ∧ (rings .running).link.ctrl = .running ∧
    ((4 : Half) - (if (rings .running).mgmt.reading then (rings .running).mgmt.mqTaken + 1
      else (rings .running).mgmt.mqTaken)).toNat ≤ (rings .running).mgmt.mqSize.toNat ∧
    (rings .running).mcqOpen = true ∧
    ((2 : Half) - (rings .running).mgmt.mcqConsumed).toNat ≤
      ((rings .running).mgmt.mcqProduced - (rings .running).mgmt.mcqConsumed).toNat ∧
    ((rings .running).rq 0).state = .running ∧
    ((4 : Half) - (if (rings .running).reading 0 then ((rings .running).rq 0).taken + 1
      else ((rings .running).rq 0).taken)).toNat ≤ ((rings .running).rq 0).size.toNat ∧
    ((rings .running).cq 0).state = .running ∧
    ((2 : Half) - ((rings .running).cq 0).consumed).toNat ≤
      (((rings .running).cq 0).produced - ((rings .running).cq 0).consumed).toNat ∧
    (rings .running).rx.state = .running ∧
    (∀ p, ((rings .running).port p).tgt.transfer.isDeciding = false) ∧
    ((4 : Half) - (if (rings .running).rx.fetch.isSome then (rings .running).rx.taken + 1
      else (rings .running).rx.taken)).toNat ≤ (rings .running).rx.size.toNat := by decide

theorem witness_CountErrors :
    Live (rings .running) ∧ (rings .running).link.ctrl = .running ∧
    (rings .running).mgmt.mqSize.toNat < ((5 : Half) - (if (rings .running).mgmt.reading then
      (rings .running).mgmt.mqTaken + 1 else (rings .running).mgmt.mqTaken)).toNat ∧
    (rings .running).mcqOpen = true ∧
    ((rings .running).mgmt.mcqProduced - (rings .running).mgmt.mcqConsumed).toNat <
      ((3 : Half) - (rings .running).mgmt.mcqConsumed).toNat ∧
    ((rings .halted).mcqOpen = true ∧ (rings .halted).link.ctrl = .halted) ∧
    ((rings .running).rq 0).state = .running ∧
    ((rings .running).rq 0).size.toNat < ((5 : Half) - (if (rings .running).reading 0 then
      ((rings .running).rq 0).taken + 1 else ((rings .running).rq 0).taken)).toNat ∧
    ((rings .running).cq 0).state = .running ∧
    (((rings .running).cq 0).produced - ((rings .running).cq 0).consumed).toNat <
      ((3 : Half) - ((rings .running).cq 0).consumed).toNat ∧
    (rings .running).rx.state = .running ∧
    (rings .running).rx.size.toNat < ((5 : Half) - (if (rings .running).rx.fetch.isSome then
      (rings .running).rx.taken + 1 else (rings .running).rx.taken)).toNat := by decide

/-! ### Witnesses: host accesses and the management rings -/

theorem witness_BusMasteringChanges : Awake up ∧ up.accesses = [] := by decide

theorem witness_AccessesTimeOut :
    (∀ a : Access, InFlight (fun _ => true) 0 (flying up a) a []) ∧
    Awake (flying up headerAccess) ∧
    (flying up { headerAccess with issuedAt := 950001 }).since 950001 < 50000 ∧
    50000 ≤ (flying up { headerAccess with issuedAt := 950000 }).since 950000 ∧
    (statusAccess .controllerStatus false).kind = .controllerStatus ∧
    (headerAccess.kind = .header ∧ (flying (at_ .starting) headerAccess).link.ctrl = .starting) ∧
    (access .mqEntry (.read [(0, 64)]) false).kind = .mqEntry ∧
    (statusAccess (.mqStatus false) false).kind = .mqStatus false ∧ up.link.ctrl = .running ∧
    (∀ (f : AccessKind → Bool) (k : AccessKind), f k = true →
      InFlight f 0 (flying up (statusAccess k false)) (statusAccess k false) []) ∧
    ∃ pre post, (flying up (statusAccess .cmdRead true)).accesses =
      pre ++ statusAccess .cmdRead true :: post ∧ ([] : List Access) = pre ++ post ∧
      (statusAccess .cmdRead true).forCommand = true ∧ ∀ b ∈ pre, b.forCommand = false :=
  ⟨fun _ => flies rfl, by decide, by decide, by decide, rfl, ⟨rfl, rfl⟩, rfl, rfl, rfl,
    fun _ _ h => flies h, [], [], rfl, rfl, rfl, by simp⟩

/-- The command of an entry given by its bytes, to be executed. -/
def bytes (n : Nat) (l : List (Nat × Byte)) : List Byte :=
  (List.range n).map fun i => (l.lookup i).getD 0
def entry (l : List (Nat × Byte)) : List Byte := bytes 64 l
def commanded (s : State) (e : List Byte) (ph : CmdPhase) : State :=
  { s with mgmt := { s.mgmt with command := some { entry := e, phase := ph } } }

theorem witness_MqEntryIsTaken :
    (let s : State := { rings .running with mgmt := { (rings .running).mgmt with mqPosted := 4 } };
      Running s ∧ s.mgmt.command = none ∧ s.mgmt.due = none ∧ s.mgmt.reading = false ∧
        s.mgmt.mqPosted ≠ s.mgmt.mqTaken ∧
        (s.mgmt.mqPosted - s.mgmt.mqTaken).toNat ≤ s.mgmt.mqSize.toNat) ∧
    (rings .running).mgmt.mqPosted = (rings .running).mgmt.mqTaken ∧
    (∀ s, InFlight (· == .mqEntry) 0 (flying s (access .mqEntry (.read [(0, 64)]) false))
      (access .mqEntry (.read [(0, 64)]) false) []) ∧
    EndsAs (access .mqEntry (.read [(0, 64)]) false) true 64 ∧
    EndsAs (access .mqEntry (.read [(0, 64)]) false) false 64 ∧
    (∀ s b, InFlight (fun k => k == .mqStatus true || k == .mqStatus false) 0
      (flying s (statusAccess (.mqStatus b) false)) (statusAccess (.mqStatus b) false) []) ∧
    EndsAs (statusAccess (.mqStatus true) false) true 0 ∧
    (commanded up (entry []) .mqStatus).mgmt.command =
      some { entry := entry [], phase := .mqStatus } := by
  refine ⟨by decide, by decide, fun _ => flies rfl, ?_, ?_, fun _ b => flies ?_, ?_, rfl⟩
  · unfold EndsAs; decide
  · unfold EndsAs; decide
  · cases b <;> rfl
  · unfold EndsAs; decide

theorem witness_McqRecordsAreWritten :
    (let s : State := { rings .running with mgmt := { (rings .running).mgmt with
        due := some (zeros 32), latches := [⟨.rqError 0, 1, 5⟩, ⟨.cqError 0, 1, 5⟩] } };
      Awake s ∧ s.mcqOpen = true ∧ s.mgmt.sequence = .idle ∧ 0 < s.mcqFree ∧
        s.mgmt.due = some (zeros 32)) ∧
    ((rings .running).mgmt.due = none ∧
      [(⟨.rqError 0, 1, 5⟩ : SetLatch), ⟨.cqError 0, 1, 5⟩] =
        [⟨.rqError 0, 1, 5⟩] ++ ⟨.cqError 0, 1, 5⟩ :: [] ∧
      ∀ y ∈ [(⟨.rqError 0, 1, 5⟩ : SetLatch)], y.time = 5 ∧ y.latch ≠ .cqError 0) ∧
    (∀ s, InFlight (· == .mcqRecord) 0 (flying s (statusAccess .mcqRecord false))
      (statusAccess .mcqRecord false) []) ∧
    EndsAs (statusAccess .mcqRecord false) true 0 ∧
    (State.mgmt { up with mgmt := { up.mgmt with sequence := .record true } }).sequence =
      .record true ∧
    ((at_ .stopping).link.ctrl = .stopping ∧ (at_ .stopping).mgmt.muted = false) ∧
    (up.link.ctrl = .running ∧ halted.link.ctrl ≠ .running) ∧
    (∀ s b, InFlight (fun k => k == .mcqStatus true || k == .mcqStatus false) 0
      (flying s (statusAccess (.mcqStatus b) false)) (statusAccess (.mcqStatus b) false) []) := by
  refine ⟨by decide, ⟨rfl, rfl, by decide⟩, fun _ => flies rfl, ?_, rfl, by decide, by decide,
    fun _ b => flies ?_⟩
  · unfold EndsAs; decide
  · cases b <;> rfl

/-- A record written while the controller stops: the sequence goes on to the MCQ status word (R173, R195),
whose end sets ISR bit 0. -/
theorem test_mcqRecordWriteEnd_stopping :
    after? (exec (.mcqRecordWriteEnd true) (flying { at_ .stopping with
        mgmt := { Mgmt.reset with mcqSize := 4, sequence := .record true, due := some (zeros 32) } }
        (statusAccess .mcqRecord false))) (fun s =>
      s.mgmt.mcqProduced == 1 && s.mgmt.due.isNone &&
        s.accesses.map (fun a => a.kind) == [.mcqStatus false] &&
        after? (exec (.mcqStatusWordWriteEnd true) s) (fun u =>
          u.ints.isr == 1 && u.accesses.isEmpty)) = true := by decide

/-! ### Witnesses: the management commands -/

/-- RUNNING with a command to execute; port 0 with its third slot a mailbox and its first an image. -/
def cmd (l : List (Nat × Byte)) : State := commanded up (entry l) .execute
def slotted (l : List (Nat × Byte)) (r : ReplyState) : State :=
  (cmd l).modPort 0 fun P => { P with
    cfg := { P.cfg with
      slots := (P.cfg.slots.set 0 ⟨0x10, .image, 8⟩).set 2 ⟨0x11, .mailbox, 1⟩ },
    tgt := { P.tgt with replies := P.tgt.replies.set 2 ⟨r, [1]⟩ } }

theorem witness_CommandsGoByTheirOpcode :
    Running (cmd []) ∧
    (cmd []).mgmt.command = some { entry := entry [], phase := .execute } ∧ opcode (entry []) = 0 ∧
    0x15 ≤ (opcode (entry [(0, 0x15)])).toNat ∧ ∀ e, ¬ Executing 0x01 e up := by
  refine ⟨by decide, rfl, by decide, by decide, ?_⟩
  rintro e ⟨_, h, _⟩
  cases h

theorem witness_RecordsGoToTheBuffer :
    Executing 0x01 (entry [(0, 1)]) (cmd [(0, 1)]) ∧
    (Executing 0x11 (entry [(0, 0x11), (8, 32)]) (cmd [(0, 0x11), (8, 32)]) ∧
      32 ≤ (byteAt (entry [(0, 0x11), (8, 32)]) 8).toNat ∧
      (byteAt (entry [(0, 0x11), (8, 31)]) 8).toNat = (31 : TrigId).val) ∧
    (Executing 0x14 (entry [(0, 0x14), (8, 4)]) (cmd [(0, 0x14), (8, 4)]) ∧
      4 ≤ (byteAt (entry [(0, 0x14), (8, 4)]) 8).toNat ∧
      (byteAt (entry [(0, 0x14), (8, 3)]) 8).toNat = (3 : PortId).val) := by decide

theorem witness_QueuesAreCreated :
    (Executing 0x02 (entry [(0, 2), (8, 4)]) (cmd [(0, 2), (8, 4)]) ∧
      4 ≤ (byteAt (entry [(0, 2), (8, 4)]) 8).toNat ∧
      (byteAt (entry [(0, 2), (8, 3), (11, 0x10), (12, 1)]) 8).toNat = (3 : CqId).val ∧
      ((rings .running).cq 0).state ≠ .absent ∧ (up.cq 3).state = .absent ∧
      (rd64 (entry [(16, 32)]) 16).toNat % 64 ≠ 0 ∧
      (rd64 (entry [(0, 2), (8, 3), (11, 0x10), (12, 1)]) 16).toNat % 64 = 0 ∧
      (rd16 (entry [(0, 2), (8, 3), (11, 0x10), (12, 1)]) 10).toNat ∈
        [4, 8, 16, 32, 64, 128, 256, 512, 1024, 2048, 4096] ∧
      byteAt (entry [(0, 2), (8, 3), (11, 0x10), (12, 1)]) 12 ≠ 0) ∧
    (Executing 0x04 (entry [(0, 4), (8, 8)]) (cmd [(0, 4), (8, 8)]) ∧
      8 ≤ (byteAt (entry [(0, 4), (8, 8)]) 8).toNat ∧
      (byteAt (entry [(0, 4), (8, 7), (10, 4), (12, 8)]) 8).toNat = (7 : RqId).val ∧
      ((rings .running).rq 0).state ≠ .absent ∧ (up.rq 7).state = .absent ∧
      8 < (byteAt (entry [(12, 9)]) 12).toNat ∧
      (byteAt (entry [(0, 4), (8, 7), (10, 4), (12, 8)]) 9).toNat = (0 : CqId).val ∧
      (rd64 (entry [(0, 4), (8, 7), (10, 4), (12, 8)]) 16).toNat % 64 = 0 ∧
      (rd16 (entry [(0, 4), (8, 7), (10, 4), (12, 8)]) 10).toNat ∈
        [4, 8, 16, 32, 64, 128, 256, 512, 1024, 2048, 4096] ∧
      1 ≤ (byteAt (entry [(0, 4), (8, 7), (10, 4), (12, 8)]) 12).toNat ∧
      (byteAt (entry [(0, 4), (8, 7), (10, 4), (12, 8)]) 12).toNat ≤ 8 ∧
      (up.cq 0).state = .absent ∧ ((rings .running).cq 0).state = .running ∧
      ((up.modCq 0 fun c => { c with state := .error }).cq 0).state = .error) := by decide

theorem witness_DeleteCompletionQueue :
    (let s := (cmd [(0, 3)]).modCq 0 fun c => { c with state := .running };
      Executing 0x03 (entry [(0, 3)]) s ∧ (s.cq 0).state ≠ .absent ∧
        (∀ q, (s.rq q).state = .absent) ∧ (∀ p, (s.port p).cfg.rxCq = none) ∧
        (∀ t, (s.trigger t).state = .empty) ∧ s.comp.holding = [] ∧ s.comp.writer = .idle ∧
        (∀ k, s.txn k = none) ∧ (∀ p, (s.port p).tgt.records = []) ∧
        (∀ p, (s.port p).tgt.staging = .free) ∧ s.rx.fetch = none ∧ s.rx.waiting = none) ∧
    Executing 0x03 (entry [(0, 3), (8, 4)]) (cmd [(0, 3), (8, 4)]) ∧
    4 ≤ (byteAt (entry [(0, 3), (8, 4)]) 8).toNat ∧
    (byteAt (entry [(0, 3)]) 8).toNat = (0 : CqId).val ∧ ((cmd [(0, 3)]).cq 0).state = .absent ∧
    ((rings .running).cq 0).state ≠ .absent ∧
    (((rings .running).rq 0).state ≠ .absent ∧ ((rings .running).rq 0).cq = 0) := by decide

theorem witness_DeleteRequestQueue :
    Executing 0x05 (entry [(0, 5), (8, 8)]) (cmd [(0, 5), (8, 8)]) ∧
    8 ≤ (byteAt (entry [(0, 5), (8, 8)]) 8).toNat ∧
    (byteAt (entry [(0, 5)]) 8).toNat = (0 : RqId).val ∧ (up.rq 0).state = .absent ∧
    ((up.modRq 0 fun c => { c with state := .deleting }).rq 0).state = .deleting ∧
    (((rings .running).rq 0).state = .running ∧ ((rings .running).rq 0).openCount = 0 ∧
      (rings .running).reading 0 = false ∧ ∀ k, (rings .running).txn k = none) ∧
    (((serving .running worked .ready .idle Engine.reset).modRq 0 fun c =>
        { c with state := .running, openCount := 1 }).rq 0).openCount ≠ 0 ∧
    (txn worked .ready).state ≠ .retryWait := by decide

/-- A command to execute, with the transaction of RQ0 in a state in service on port 0, CQ0 and RQ0
RUNNING, one entry open. -/
def commandServing (l : List (Nat × Byte)) (x : TxnState) (ps : PortState) (E : Engine) : State :=
  commanded ((serving .running worked x ps E).modRq 0 fun c =>
    { c with state := .running, openCount := 1 }) (entry l) .execute

theorem canPost_commandServing (l : List (Nat × Byte)) (x : TxnState) (ps : PortState) (E : Engine) :
    CanPost (commandServing l x ps E) 0 (txn worked x) :=
  ⟨⟨0, rfl⟩, rfl, Nat.zero_lt_succ _, by intro q; fin_cases q <;> rfl, rfl⟩

theorem witness_DeleteRequestQueue_retryWait :
    (let s := commandServing [(0, 5)] .retryWait .idle Engine.reset;
      Executing 0x05 (entry [(0, 5)]) s ∧ (s.rq 0).state = .running ∧ (s.rq 0).openCount ≠ 0 ∧
        (s.port 0).inService = some 0 ∧ s.txn 0 = some (txn worked .retryWait) ∧
        ∀ j, j ≠ 0 → s.txn j = none) ∧
    CanPost (commandServing [(0, 5)] .retryWait .idle Engine.reset) 0 (txn worked .retryWait) :=
  ⟨by decide, canPost_commandServing _ _ _ _⟩

/-- What the checks of CONFIGURE PORT see of an entry: slots and images in order, a buffer wanted, the
receive CQ. Slot 0 has the role and image length given. -/
def cfgEntry (role len rxCq : Byte) : List Byte :=
  entry [(0, 6), (10, 5), (11, 25), (12, 3), (13, rxCq), (14, 10), (16, 0x10), (17, role), (18, len)]
def cfgSeen (role len rxCq : Byte) : Option (Bool × Bool × Bool × Option CqId) :=
  (parseSettings (cfgEntry role len rxCq)).map fun c =>
    (slotsOk c.slots, imagesOk c.slots, c.wantsBuffer, c.rxCq)

theorem witness_ConfigurePort :
    (Executing 0x06 (entry [(0, 6), (8, 4)]) (cmd [(0, 6), (8, 4)]) ∧
    4 ≤ (byteAt (entry [(0, 6), (8, 4)]) 8).toNat ∧
    (byteAt (entry [(0, 6)]) 8).toNat = (0 : PortId).val ∧ (up.port 0).state = .off ∧
    ((up.modPort 0 fun P => { P with state := .idle }).port 0).state ≠ .off ∧
    parseSettings (entry [(0, 6), (9, 3)]) = none) ∧
    cfgSeen 1 0 0xFF = some (true, false, false, none) ∧
    cfgSeen 1 8 0xFF = some (true, true, false, none) ∧
    cfgSeen 2 0 0xFF = some (true, true, true, none) ∧
    cfgSeen 2 0 0 = some (true, true, true, some 0) ∧
    (up.cq 0).state = .absent ∧ ((rings .running).cq 0).state = .running ∧
    ((up.modCq 0 fun c => { c with state := .error }).cq 0).state = .error :=
  ⟨by decide, by decide, by decide, by decide, by decide, by decide, by decide, by decide⟩

theorem witness_EnableAndRestartPort :
    Executing 0x07 (entry [(0, 7), (8, 4)]) (cmd [(0, 7), (8, 4)]) ∧
    4 ≤ (byteAt (entry [(0, 7), (8, 4)]) 8).toNat ∧
    (byteAt (entry [(0, 7), (8, 3)]) 8).toNat = (3 : PortId).val ∧ (up.port 3).state = .off ∧
    ((up.modPort 3 fun P => { P with state := .faulted }).port 3).state ≠ .off ∧
    Executing 0x09 (entry [(0, 9), (8, 4)]) (cmd [(0, 9), (8, 4)]) ∧
    (up.port 3).state ≠ .faulted ∧
    ((up.modPort 3 fun P => { P with state := .faulted }).port 3).state = .faulted := by decide

theorem witness_DisablePort :
    Executing 0x08 (entry [(0, 8), (8, 4)]) (cmd [(0, 8), (8, 4)]) ∧
    4 ≤ (byteAt (entry [(0, 8), (8, 4)]) 8).toNat ∧
    (byteAt (entry [(0, 8)]) 8).toNat = (0 : PortId).val ∧ (up.port 0).state = .off ∧
    (((cmd [(0, 8)]).modPort 0 fun P => { P with state := .idle }).port 0).inService = none ∧
    (((cmd [(0, 8)]).modPort 0 fun P => { P with state := .idle }).port 0).tgt.atHand.buffer = none ∧
    (let s := (commanded (rings .running) (entry [(0, 8)]) .execute).modPort 0 fun P =>
        { P with state := .idle, tgt := { P.tgt with atHand := .present ⟨0x2000, 16, 9, 0⟩ } };
      Executing 0x08 (entry [(0, 8)]) s ∧ (s.port 0).inService = none ∧ (s.port 0).state = .idle ∧
        (s.port 0).tgt.atHand = .present ⟨0x2000, 16, 9, 0⟩ ∧ (s.port 0).tgt.records = [] ∧
        (s.cq 0).state = .running ∧ s.comp.holding.length < 32) ∧
    (((cmd [(0, 8)]).modPort 0 fun P => { P with state := .target }).port 0).state = .target ∧
    ((serving .running worked .active .master Engine.reset).port 0).inService = some 0 ∧
    (serving .running worked .active .master Engine.reset).txn 0 = some (txn worked .active) ∧
    (txn worked .waiting).mark = none := by decide

theorem witness_DisablePort_service :
    (let s := commandServing [(0, 8)] .staging .idle Engine.reset;
      Executing 0x08 (entry [(0, 8)]) s ∧ (s.port 0).inService = some 0 ∧
        s.txn 0 = some (txn worked .staging)) ∧
    (let s := commandServing [(0, 8)] .ready .idle Engine.reset;
      Executing 0x08 (entry [(0, 8)]) s ∧ (s.port 0).inService = some 0 ∧
        s.txn 0 = some (txn worked .ready) ∧ (s.port 0).state = .idle ∧
        (s.port 0).tgt.atHand.buffer = none) ∧
    CanPost (commandServing [(0, 8)] .ready .idle Engine.reset) 0 (txn worked .ready) :=
  ⟨by decide, by decide, canPost_commandServing _ _ _ _⟩

theorem witness_SetReceiveRing :
    Executing 0x0A (entry [(0, 10)]) (cmd [(0, 10)]) ∧
    (rd16 (entry [(0, 10)]) 10).toNat ∉ [4, 8, 16, 32, 64, 128, 256, 512, 1024] ∧
    (rd64 (entry [(0, 10), (11, 4)]) 16).toNat % 64 = 0 ∧
    (rd16 (entry [(0, 10), (11, 4)]) 10).toNat ∈ [4, 8, 16, 32, 64, 128, 256, 512, 1024] ∧
    (State.rx { up with rx := { up.rx with fetch := some (0, 0) } }).fetch ≠ none ∧
    (∀ p, (up.port p).state = .off ∨ (up.port p).cfg.targetEnable = false) ∧
    up.rx.fetch = none ∧ up.rx.waiting = none := by decide

theorem witness_ImagesAndReplies :
    (Executing 0x0B (entry [(0, 11), (9, 3)]) (cmd [(0, 11), (9, 3)]) ∧
      3 ≤ (byteAt (entry [(0, 11), (9, 3)]) 9).toNat ∧
      ((up.port 0).cfg.slots.get 0).role ≠ .image ∧
      (((slotted [] .empty).port 0).cfg.slots.get 0).role = .image ∧
      (((slotted [] .empty).port 0).cfg.slots.get 0).imageLen.toNat <
        (rd16 (entry [(10, 7), (12, 2)]) 10).toNat + (rd16 (entry [(10, 7), (12, 2)]) 12).toNat ∧
      1 ≤ (rd16 (entry [(10, 7), (12, 1)]) 12).toNat ∧
      (rd16 (entry [(10, 7), (12, 1)]) 12).toNat ≤ 256 ∧
      (rd16 (entry [(10, 7), (12, 1)]) 10).toNat + (rd16 (entry [(10, 7), (12, 1)]) 12).toNat ≤
        (((slotted [] .empty).port 0).cfg.slots.get 0).imageLen.toNat) ∧
    (Executing 0x0C (entry [(0, 12), (8, 4)]) (cmd [(0, 12), (8, 4)]) ∧
      4 ≤ (byteAt (entry [(0, 12), (8, 4)]) 8).toNat ∧
      ((up.port 0).cfg.slots.get 2).role ≠ .mailbox ∧
      (((slotted [] .empty).port 0).cfg.slots.get 2).role = .mailbox ∧
      32 < (byteAt (entry [(10, 33)]) 10).toNat ∧
      (byteAt (entry [(10, 32)]) 10).toNat ≤ 32 ∧
      (((slotted [] .empty).port 0).tgt.replies.get 2).state ≠ .reading ∧
      (((slotted [] .reading).port 0).tgt.replies.get 2).state = .reading) := by decide

theorem witness_DefineTriggerAndSetTick :
    (Executing 0x0D (entry [(0, 13), (8, 32)]) (cmd [(0, 13), (8, 32)]) ∧
      32 ≤ (byteAt (entry [(0, 13), (8, 32)]) 8).toNat ∧
      (byteAt (entry [(0, 13), (8, 31)]) 8).toNat = (31 : TrigId).val ∧
      ((poll true 0).trigger 4).state = .armed ∧ (up.trigger 31).state ≠ .armed ∧
      (up.trigger 31).outstanding = false) ∧
    (Executing 0x12 (entry [(0, 18), (8, 8)]) (cmd [(0, 18), (8, 8)]) ∧
      (∃ t, ((poll true 0).trigger t).state = .armed) ∧ (∀ t, (up.trigger t).state ≠ .armed) ∧
      (rd16 (entry [(8, 8)]) 8).toNat < 9 ∧ 9 ≤ (rd16 (entry [(8, 9)]) 8).toNat) := by decide

theorem witness_ClearTrigger :
    Executing 0x10 (entry [(0, 16), (8, 32)]) (cmd [(0, 16), (8, 32)]) ∧
    32 ≤ (byteAt (entry [(0, 16), (8, 32)]) 8).toNat ∧
    (byteAt (entry [(0, 16), (8, 31)]) 8).toNat = (31 : TrigId).val ∧
    ¬ ((up.trigger 31).state = .disabled ∧ (up.trigger 31).outstanding = false) ∧
    ((up.modTrigger 31 fun E => { E with state := .disabled }).trigger 31).state = .disabled ∧
    ((up.modTrigger 31 fun E => { E with state := .disabled }).trigger 31).outstanding = false := by
  decide

theorem witness_EnableAndDisableTriggers :
    (Executing 0x0E (entry [(0, 14), (11, 0x80)]) (cmd [(0, 14), (11, 0x80)]) ∧
      (rd32 (entry [(0, 14), (11, 0x80)]) 8).getLsbD (31 : TrigId).val = true ∧
      ((cmd [(0, 14), (11, 0x80)]).trigger 31).state = .empty ∧
      ((up.modTrigger 31 fun E => { E with state := .disabled }).trigger 31).state = .disabled ∧
      (rd32 (entry [(0, 14), (11, 0x80)]) 8).getLsbD (0 : TrigId).val = false ∧
      (∀ t, ((up.modTrigger 31 fun E => { E with state := .disabled }).trigger t).state ≠ .armed) ∧
      (∃ t, ((poll false 0).trigger t).state = .armed)) ∧
    (Executing 0x0F (entry [(0, 15), (8, 0x10)]) (cmd [(0, 15), (8, 0x10)]) ∧
      (rd32 (entry [(0, 15), (8, 0x10)]) 8).getLsbD (4 : TrigId).val = true ∧
      ((poll true 0).trigger 4).state = .armed ∧ ((poll true 0).trigger 4).outstanding = true ∧
      ((poll false 0).trigger 4).outstanding = false) := by decide

theorem witness_AbortMarks :
    Executing 0x13 (entry [(0, 19), (8, 8)]) (cmd [(0, 19), (8, 8)]) ∧
    8 ≤ (byteAt (entry [(0, 19), (8, 8)]) 8).toNat ∧
    (byteAt (entry [(0, 19), (8, 7)]) 8).toNat = (7 : RqId).val ∧ (up.rq 7).state = .absent ∧
    (((up.setSlot 0 (.txn (txn worked .waiting))).modRq 0 fun c =>
      { c with state := .running }).rq 0).state ≠ .absent ∧
    (txn worked .waiting).origin = .rq 0 ∧
    (txn worked .waiting).req.tag = rd16 (entry [(10, 7)]) 10 ∧
    (txn worked .waiting).state = .waiting := by decide

/-- An ABORT of the one transaction with its tag, in service. -/
def aborting (x : TxnState) (ps : PortState) (E : Engine) : State :=
  commandServing [(0, 19), (10, 7)] x ps E

theorem witness_AbortMarks_service :
    (∀ x ps E, Executing 0x13 (entry [(0, 19), (10, 7)]) (aborting x ps E) ∧
      ((aborting x ps E).rq 0).state ≠ .absent ∧ ((aborting x ps E).port 0).inService = some 0 ∧
      (aborting x ps E).txn 0 = some (txn worked x) ∧ (txn worked x).port = 0 ∧
      (txn worked x).origin = .rq 0 ∧ CanPost (aborting x ps E) 0 (txn worked x) ∧
      ((aborting x ps E).port 0).pendingResult = none ∧ ((aborting x ps E).port 0).eng = E) ∧
    (txn worked .ready).req.tag = rd16 (entry [(0, 19), (10, 7)]) 10 ∧
    (∀ j, j ≠ 0 → (aborting .ready .idle Engine.reset).txn j = none) ∧
    ((engine .sending 0 0).phase ∈ [Phase.addressing, .sending, .receiving, .checking, .closing] ∧
      (engine .sending 0 0).outcome = none ∧ (engine .sending 0 0).stopReq = none ∧
      (engine .sending 0 0).quiet = false) :=
  ⟨fun _ _ _ => ⟨⟨⟨rfl, rfl⟩, rfl, rfl⟩, nofun, rfl, rfl, rfl, rfl, canPost_commandServing _ _ _ _, rfl, rfl⟩,
    by decide, by decide, by decide⟩

/-- A command's access in flight. -/
def cmdAccess (k : AccessKind) (n : Nat) : Access :=
  access k (match k with | .cmdRead => .read [(0, n)] | _ => .write [(0, [])]) true

/-- A definition of a periodic entry that reads one byte, for a target CQ. -/
def definition (cq : Byte) : List Byte :=
  bytes 128 [(4, 1), (24, 2), (25, 0x48), (30, 1), (81, cq), (84, 1), (96, 1), (98, 1)]

theorem witness_CommandAccessEnds :
    Running (commanded up (entry []) .hostAccess) ∧
    (∀ k n, ∃ pre post, (flying up (cmdAccess k n)).accesses = pre ++ cmdAccess k n :: post ∧
      ([] : List Access) = pre ++ post ∧ (cmdAccess k n).forCommand = true ∧
      ∀ b ∈ pre, b.forCommand = false) ∧
    (commanded up (entry []) .hostAccess).mgmt.command =
      some { entry := entry [], phase := .hostAccess } ∧
    EndsAs (cmdAccess .cmdWrite 0) true 0 ∧ EndsAs (cmdAccess .cmdRead 4) true [1, 2, 3, 4].length ∧
    opcode (entry [(0, 0x0B)]) = 0x0B ∧
    (((slotted [] .empty).port 0).tgt.transfer ≠ .imageRead 0 true) ∧
    (((slotted [] .empty).modTarget 0 fun T => { T with transfer := .imageRead 0 false }).port
      0).tgt.transfer = .imageRead 0 false ∧
    opcode (entry [(0, 0x0D)]) = 0x0D ∧ parseDefinition [] = none ∧
    (parseDefinition (definition 4)).isSome ∧ 4 ≤ (byteAt (definition 4) 81).toNat ∧
    (byteAt (definition 3) 81).toNat = (3 : CqId).val ∧
    (cmdAccess (.cqStatus 0 .delete) 0).kind = .cqStatus 0 .delete := by
  refine ⟨by decide, fun _ _ => ⟨[], [], rfl, rfl, rfl, by simp⟩, rfl, ?_, ?_, by decide, by decide,
    by decide, by decide, by decide, by decide, by decide, by decide, rfl⟩ <;> unfold EndsAs <;> decide

/-! ### Witnesses: request queues and the ports' schedulers -/

/-- RQ0 RUNNING with an entry posted. -/
def postedOne (c : Ctrl) : State := (rings c).modRq 0 fun q => { q with posted := 1 }
def rqRead : Access := access (.rqEntry 0) (.read [(0, 64)]) false
/-- Its entry read in flight, in the turn's first place. -/
def readingOne (c : Ctrl) : State :=
  flying { (postedOne c).modRq 0 fun q => { q with weight := 1 } with
    fetch := { FetchUnit.reset with turn := some { q := 0, count := 0, slot := 0 } } } rqRead
/-- A well-formed entry that reads one byte at port 0, with FENCE or not, and one with no segment. -/
def requestEntry (flags nseg : Byte) : List Byte :=
  entry [(3, flags), (4, nseg), (24, 2), (25, 0x48), (30, 1)]

theorem witness_FetchTurns :
    Running up ∧ (∀ r, (up.rq r).state ≠ .running ∨ (up.rq r).posted = (up.rq r).taken ∨
      (up.rq r).hold ≠ none) ∧
    Running (postedOne .running) ∧ (postedOne .running).fetch.turn = none ∧
    (postedOne .running).fetch.stalled = none ∧
    after (postedOne .running).fetch.lastServed = [] ++ 0 :: [1, 2, 3, 4, 5, 6, 7] ∧
    ((postedOne .running).rq 0).state = .running ∧
    ((postedOne .running).rq 0).posted ≠ ((postedOne .running).rq 0).taken ∧
    (((postedOne .running).rq 0).posted - ((postedOne .running).rq 0).taken).toNat ≤
      ((postedOne .running).rq 0).size.toNat ∧
    ((postedOne .running).rq 0).hold = none ∧ (postedOne .running).freeRequestSlot = some 0 := by
  decide

theorem witness_EntryReadsEnd :
    Live (readingOne .running) ∧
    InFlight (fun k => match k with | .rqEntry _ => true | _ => false) 0 (readingOne .running) rqRead [] ∧
    (readingOne .running).fetch.turn = some { q := 0, count := 0, slot := 0 } ∧
    ((readingOne .running).rq 0).state = .running ∧ EndsAs rqRead true 64 ∧
    ((readingOne .running).rq 0).weight.toNat ≤ 0 + 1 ∧
    (malformation (parseRequest (requestEntry 0 1)) = none ∧
      (parseRequest (requestEntry 0 1)).urgent = false ∧
      (parseRequest (requestEntry 0 1)).port.toNat = (0 : PortId).val ∧
      (parseRequest (requestEntry 0 1)).fence = false ∧
      ((readingOne .running).port 0).list.length < 32) ∧
    ((parseRequest (requestEntry 1 1)).fence = true ∧
      1 ≤ (((readingOne .running).modRq 0 fun q => { q with openCount := 1 }).rq 0).openCount) ∧
    ((malformation (parseRequest (requestEntry 0 0))).isSome = true ∧
      ((readingOne .running).cq ((readingOne .running).rq 0).cq).state = .running ∧
      (readingOne .running).comp.holding.length < 32) ∧
    (let s := flying { ((postedOne .running).modRq 0 fun q =>
          { q with weight := 2, posted := 2 }).setSlot 0 .reserved with
        fetch := { FetchUnit.reset with turn := some { q := 0, count := 0, slot := 0 } } } rqRead;
      (s.port 0).list.length < 32 ∧ s.link.ctrl = .running ∧ (s.rq 0).state = .running ∧
        (s.rq 0).hold = none ∧ s.fetch.stalled = none ∧ 0 + 1 < (s.rq 0).weight.toNat ∧
        (s.rq 0).posted ≠ (s.rq 0).taken + 1 ∧
        ((s.rq 0).posted - ((s.rq 0).taken + 1)).toNat ≤ (s.rq 0).size.toNat ∧
        s.slots.get 0 ≠ .free ∧ s.freeRequestSlot = some 1) ∧
    (((readingOne .running).modRq 0 fun q => { q with state := .deleting, openCount := 1 }).rq 0).state =
      .deleting ∧
    (∀ s, InFlight (· == .rqStatus 0) 0 (flying s (statusAccess (.rqStatus 0) false))
      (statusAccess (.rqStatus 0) false) []) ∧
    EndsAs (statusAccess (.rqStatus 0) false) true 0 ∧ ((rings .running).rq 0).state = .running ∧
    (up.rq 0).state ≠ .running := by
  refine ⟨by decide, flies rfl, rfl, by decide, ?_, by decide, by decide, by decide, by decide,
    by decide, by decide, fun _ => flies rfl, ?_, by decide, by decide⟩ <;> unfold EndsAs <;> decide

theorem witness_InsertionKeepsTheOrder :
    (∀ j, ((listed [(0, false), (1, false)]).port 1).inService = some j →
      ((listed [(0, false), (1, false)]).port 1).list.head? = some j) ∧
    ((listed [(0, false), (1, false)]).port 1).inService = some 1 := by decide

/-- A transaction that waits first in the list of port 0, whose state is given. -/
def listedOne (segs : List Segment) (ps : PortState) : State :=
  (serving .running segs .waiting ps Engine.reset).modPort 0 fun P => { P with inService := none }

theorem canPost (segs : List Segment) (x : TxnState) (E : Engine) (ps : PortState) (c : Ctrl) :
    CanPost (serving c segs x ps E) 0 (txn segs x) :=
  ⟨⟨0, rfl⟩, rfl, Nat.zero_lt_succ _, by intro q; fin_cases q <;> rfl, rfl⟩

theorem witness_DispatchTakesTheFirst :
    Running up ∧ (up.port 0).list = [] ∧
    ((listedOne worked .idle).port 0).inService = none ∧
    ((listedOne worked .idle).port 0).disablePending = false ∧
    ((listedOne worked .idle).port 0).list = 0 :: [] ∧
    (listedOne worked .idle).txn 0 = some (txn worked .waiting) ∧
    CanPost (listedOne worked .off) 0 (txn worked .waiting) ∧
    ((txn worked .waiting).mark = none ∧ ((listedOne worked .off).port 0).state = .off) ∧
    (((listedOne worked .idle).port 0).state ≠ .off ∧
      ((listedOne worked .idle).port 0).state ≠ .faulted ∧ (txn worked .waiting).trig = none ∧
      (txn worked .waiting).req.writeBytes ≠ 0) ∧
    (txn [seg .read false 1] .waiting).req.writeBytes = 0 ∧
    (newInstance 0 Trigger.reset (request worked) 0 0 0).trig.isSome = true := by
  refine ⟨by decide, by decide, by decide, by decide, by decide, by decide, ?_, by decide, by decide,
    by decide, by decide⟩
  exact ⟨⟨0, rfl⟩, rfl, by decide, by intro q; fin_cases q <;> rfl, rfl⟩

def stagingRead : Access := access (.staging 0) (.read [(0x1000, 1)]) false

theorem witness_StagingAndDrainingEnd :
    (let s := flying (serving .running worked .staging .idle Engine.reset) stagingRead;
      Live s ∧ (s.port 0).inService = some 0 ∧ s.txn 0 = some (txn worked .staging) ∧
        (txn worked .staging).state = .staging ∧ (s.port 0).pendingResult = none) ∧
    (∀ s, InFlight (· == .staging 0) 0 (flying s stagingRead) stagingRead []) ∧
    EndsAs stagingRead true [(5 : Byte)].length ∧ EndsAs stagingRead false ([] : List Byte).length ∧
    CanPost (serving .running worked .staging .idle Engine.reset) 0 (txn worked .staging) ∧
    (((serving .running worked .staging .idle Engine.reset).modPort 0 fun P =>
      { P with pendingResult := some (.deadline, 0) }).port 0).pendingResult = some (.deadline, 0) ∧
    (∀ s, InFlight (· == .draining 0) 0 (flying s (statusAccess (.draining 0) false))
      (statusAccess (.draining 0) false) []) ∧
    (txn worked .draining).state = .draining ∧ (txn worked .draining).trig = none ∧
    CanPost (serving .running worked .draining .idle Engine.reset) 0 (txn worked .draining) ∧
    (txn worked .draining).req.suppress = false := by
  refine ⟨by decide, fun _ => flies rfl, ?_, ?_, canPost _ _ _ _ _, by decide, fun _ => flies rfl, rfl,
    rfl, canPost _ _ _ _ _, rfl⟩ <;> unfold EndsAs <;> decide

/-- An attempt that closes with a retry decision. -/
def refused : State :=
  serving .running worked .active .master { engine .closing 0 0 with outcome := some .retry }

theorem witness_GapsAndDeadlinesExpire :
    (serving .running worked .retryWait .idle Engine.reset).txn 0 = some (txn worked .retryWait) ∧
    Live up ∧ Running up ∧ (txn worked .retryWait).state = .retryWait ∧
    (txn worked .retryWait).req.retryGap.toNat * 100 ≤ ((1000000 : Word) - 0).toNat ∧
    ((1000000 : Word) - 999999).toNat < ({ request worked with retryGap := 1 }).retryGap.toNat * 100 ∧
    (txn worked .held).req.deadline ≠ 0 ∧ (txn worked .held).mark = none ∧
    (txn worked .held).req.deadline.toNat * 1000 ≤ ((1000000 : Word) - 999000).toNat ∧
    ((1000000 : Word) - 999001).toNat < (txn worked .held).req.deadline.toNat * 1000 ∧
    (txn worked .held).state = .held ∧ (txn worked .staging).state = .staging ∧
    CanPost (serving .running worked .ready .idle Engine.reset) 0 (txn worked .ready) ∧
    ((serving .running worked .active .master (engine .sending 0 0)).port 0).eng.outcome = none ∧
    ((serving .running worked .active .master (engine .sending 0 0)).port 0).eng.stopReq = none ∧
    ((serving .running worked .active .master (engine .sending 0 0)).port 0).eng.phase ∈
      [Phase.addressing, .sending, .receiving, .checking, .closing] ∧
    (refused.port 0).eng.outcome = some .retry :=
  ⟨by decide, by decide, by decide, rfl, by decide, by decide, by decide, rfl, by decide, by decide,
    rfl, rfl, canPost _ _ _ _ _, by decide, by decide, by decide, rfl⟩

/-- Its deadline expired while the attempt closes with a retry decision, the transaction ends DEADLINE at
the attempt's end (R57), not READY. -/
theorem test_deadlineExpiry_retry :
    after? (exec (.deadlineExpiry 0) refused) (fun s =>
      after? (exec (.masterStopComplete 0) s) (fun u =>
        (match u.txn 0 with | some t => t.state == .recorded && t.result == .deadline | none => false) &&
          (u.port 0).state == .idle && u.comp.holding.length == 1)) = true := by decide

/-! ### Witnesses: the master engine -/

theorem witness_AttemptsOpen :
    (let s := serving .running worked .ready .idle Engine.reset;
      Running s ∧ (s.port 0).inService = some 0 ∧ s.txn 0 = some (txn worked .ready) ∧
        (txn worked .ready).state = .ready ∧ (s.port 0).state = .idle ∧
        (s.port 0).busFree = true ∧ (s.port 0).eng.phase = .none) ∧
    ((serving .running worked .ready .observing Engine.reset).port 0).state ≠ .idle ∧
    ((serving .running worked .active .idle (engine .between 0 0)).port 0).eng.phase = .between ∧
    ((serving .running worked .active .master (engine .opening 0 0)).port 0).eng.phase = .opening ∧
    ((serving .running worked .active .master (engine .opening 0 0)).port 0).eng.restart = false ∧
    ((serving .running worked .active .master
      { engine .opening 0 0 with restart := true }).port 0).eng.restart = true := by decide

/-- The worked attempt in a phase of a segment, with so many bytes passed in it. -/
def attempt (ph : Phase) (segment n : Nat) : State :=
  serving .running worked .active .master { engine ph segment 0 with bytePos := n }

theorem witness_BytesAreSent :
    (let s := attempt .addressing 0 0;
      Awake s ∧ (s.port 0).inService = some 0 ∧ s.txn 0 = some (txn worked .active) ∧
        (s.port 0).eng.stopReq = none ∧ (s.port 0).eng.quiet = false ∧
        (s.port 0).eng.outcome = none ∧ (s.port 0).eng.phase = .addressing) ∧
    (((txn worked .active).req.seg 0).kind = .write ∧ ((txn worked .active).req.seg 0).length ≠ 0) ∧
    ((request [seg .write false 0]).seg 0).length = 0 ∧
    ((txn worked .active).req.seg 1).kind ≠ .write ∧
    (txn worked .active).nackUsed < (txn worked .active).req.nackRetries.toNat ∧
    (request worked).nackRetries.toNat ≤ 1 ∧
    (((attempt .sending 0 0).port 0).eng.phase = .sending ∧
      ((attempt .sending 0 0).port 0).eng.bytePos <
        ((txn worked .active).req.seg 0).length.toNat) ∧
    ((txn worked .active).req.seg 0).ignoreNack = false := by decide

theorem witness_BytesAreReceived :
    (let s := attempt .receiving 1 0;
      Awake s ∧ (s.port 0).inService = some 0 ∧ s.txn 0 = some (txn worked .active) ∧
        (s.port 0).eng.stopReq = none ∧ (s.port 0).eng.quiet = false ∧
        (s.port 0).eng.outcome = none ∧ (s.port 0).eng.phase = .receiving ∧
        ((txn worked .active).req.seg 1).kind ≠ .readCounted ∧
        (s.port 0).eng.bytePos + 1 < ((txn worked .active).req.seg 1).length.toNat) ∧
    ((txn worked .active).req.seg 1).length.toNat ≤ ((attempt .receiving 1 1).port 0).eng.bytePos + 1 ∧
    (((request [seg .readCounted false 3]).seg 0).kind = .readCounted ∧
      ((request [seg .readCounted false 3]).seg 0).length.toNat - 1 < (3 : Byte).toNat ∧
      (2 : Byte).toNat ≤ ((request [seg .readCounted false 3]).seg 0).length.toNat - 1 ∧
      ((attempt .receiving 0 0).port 0).eng.countRecv = none) ∧
    ((attempt .checking 1 2).port 0).eng.phase = .checking ∧
    ((request [seg .write false 1]).seg 0).kind = .write := by decide

theorem witness_AttemptsEnd :
    (let s := attempt .closing 0 1;
      Awake s ∧ (s.port 0).inService = some 0 ∧ s.txn 0 = some (txn worked .active) ∧
        (s.port 0).eng.quiet = false ∧ (s.port 0).tgt.disableTold = false ∧
        (s.port 0).disablePending = false ∧ (s.port 0).eng.phase = .closing ∧
        (s.port 0).eng.outcome = none ∧ (s.port 0).eng.segment + 1 ≠ (request worked).nseg.toNat) ∧
    (((attempt .closing 1 1).port 0).eng.segment + 1 = (request worked).nseg.toNat ∧
      ((attempt .closing 1 1).port 0).eng.readCount = 0 ∧ (request worked).suppress = false) ∧
    CanPost (attempt .closing 1 1) 0 (txn worked .active) ∧
    ((serving .running worked .active .master
      { engine .closing 0 0 with outcome := some .retry }).port 0).eng.outcome = some .retry ∧
    ((((attempt .sending 0 0).port 0).eng.phase, LossPlace.data) ∈
        [(Phase.sending, LossPlace.data), (.receiving, .data), (.checking, .data),
          (.closing, .stop), (.addressing, .address)] ∧
      ((attempt .addressing 0 0).port 0).inStep = false ∧
      (txn worked .active).arbUsed < (request worked).arbRetries.toNat ∧
      (request worked).arbRetries.toNat ≤ 1) ∧
    (∀ E, CanPost (serving .running worked .active .master E) 0 (txn worked .active) ∧
      ((serving .running worked .active .master E).port 0).eng = E) ∧
    (Result.aborted ≠ .ok ∧ ((txn worked .active).req.seg 1).kind ≠ .write) :=
  ⟨by decide, by decide, canPost _ _ _ _ _, by decide, by decide,
    fun _ => ⟨canPost _ _ _ _ _, rfl⟩, by decide⟩

/-- Losses with an outcome decided (R78, R79, R82): at the STOP that follows a stop request at once from
SENDING, and in the refusal of an OVERLENGTH count byte, which is not counted. -/
theorem test_arbitrationLoss :
    after? (exec (.arbitrationLoss 0 .stop 0) (serving .running worked .active .master
      { engine .sending 0 0 with
        stopReq := some .aborted, outcome := some (.result .aborted 0) })) (fun u =>
      (match u.txn 0 with | some t => t.result == .aborted | none => false) &&
        (u.port 0).state == .observing && (u.port 0).stats.arbLosses == 1) = true ∧
    after? (exec (.arbitrationLoss 0 .data 0) (serving .running worked .active .master
      { engine .closing 1 0 with
        readCount := 1, outcome := some (.result .overlength 0) })) (fun u =>
      (match u.txn 0 with
        | some t => t.result == .overlength && t.readCount == 0 | none => false) &&
        (u.port 0).state == .observing) = true := by decide

/-! ### Witnesses: completion queues, supervision, target units and triggers -/

def held (n : CqId) (slot : Option SlotId) : HoldEntry := ⟨zeros 32, n, false, slot⟩
/-- The holding list of chapter 6's step 3: an entry for a full queue ahead of one for CQ1. -/
def holding (n : Nat) : State :=
  { (up.modCq 0 fun c => { c with state := .running, size := 4, produced := 4 }).modCq 1
      fun c => { c with state := .running, size := 8 } with
    comp := { Completion.reset with holding := List.replicate n (held 0 none) ++ [held 1 none] } }
def writing (slot : Option SlotId) : State :=
  flying { serving .running worked .recorded .idle Engine.reset with
    comp := { Completion.reset with writer := .record (held 0 slot) } } (statusAccess .cqRecord false)

theorem witness_RecordsAreWritten :
    (Live up ∧ up.comp.holding = []) ∧
    (Live (holding 1) ∧ (holding 1).comp.writer = .idle ∧
      (holding 1).comp.holding = [held 0 none] ++ held 1 none :: [] ∧
      (∀ d ∈ [held 0 none], ((holding 1).cq d.cq).size.toNat ≤
        (((holding 1).cq d.cq).produced - ((holding 1).cq d.cq).consumed).toNat) ∧
      ((holding 1).cq 1).state = .running ∧
      (((holding 1).cq 1).produced - ((holding 1).cq 1).consumed).toNat <
        ((holding 1).cq 1).size.toNat ∧ (∀ p, (holding 1).offerOf (.sched p) = none) ∧
      (∀ p, (holding 1).offerOf (.target p) = none) ∧ (holding 1).offerOf .fetchUnit = none ∧
      (holding 1).offerOf .receiveUnit = none) ∧
    (let s := { holding 31 with rx := { (holding 31).rx with waiting := some ⟨zeros 32, 1⟩ } };
      s.comp.holding.length = 32 ∧
        blocksAfter s.comp.lastAdmitted = (blocksAfter s.comp.lastAdmitted).take 9 ++
          .receiveUnit :: [] ∧
        (∀ c ∈ (blocksAfter s.comp.lastAdmitted).take 9, s.offerOf c = none) ∧
        s.offerOf .receiveUnit = some 1 ∧ (s.cq 1).state = .running) ∧
    (let s := writing (some 0);
      Awake s ∧ s.link.ctrl ≠ .stopping ∧ s.comp.writer = .record (held 0 (some 0)) ∧
        s.txn 0 = some (txn worked .recorded) ∧ (txn worked .recorded).origin = .rq 0 ∧
        (s.rq 0).hold = none ∧ (s.rq 0).state ≠ .deleting ∧ (s.cq 0).state = .running) ∧
    InFlight (· == .cqRecord) 0 (writing (some 0)) (statusAccess .cqRecord false) [] ∧
    EndsAs (statusAccess .cqRecord false) true 0 ∧ (held 0 none).slot = none := by
  refine ⟨by decide, by decide, by decide, by decide, flies rfl, ?_, rfl⟩
  unfold EndsAs; decide

/-- CQ0 fails with 31 entries for it in a full list, while the target unit of port 1 waits with two records
for CQ1 and the receive unit with one: each waiting block gets one of the places freed, in R111's order,
before the target unit's second record is offered. -/
theorem test_cqConsumedNotify_places :
    (let rec_ (x : Byte) : List Byte := x :: zeros 31
     let s := (holding 31).modTarget 1 fun T => { T with
       records := [⟨⟨rec_ 1, 1⟩, false⟩, ⟨⟨rec_ 2, 1⟩, false⟩] }
     after? (exec (.cqConsumedNotify 0 9) { s with rx := { s.rx with waiting := some ⟨rec_ 3, 1⟩ } })
       (fun u => u.comp.holding.map (fun e => byteAt e.record 0) == [0, 1, 3, 2] &&
         u.comp.lastAdmitted == .receiveUnit && u.rx.waiting.isNone)) = true := by decide +kernel

theorem witness_RecordsAreAnnounced :
    (∀ s w, InFlight (fun x => match x with | .cqStatus i _ => i == 0 | _ => false) 0
      (flying s (statusAccess (.cqStatus 0 w) false)) (statusAccess (.cqStatus 0 w) false) []) ∧
    (Awake up ∧ Live up ∧ up.link.ctrl ≠ .stopping) ∧
    (∀ w, EndsAs (statusAccess (.cqStatus 0 w) false) true 0) ∧
    (State.comp { up with comp := { up.comp with writer := .status 0 true } }).writer =
      .status 0 true ∧
    (let s := up.modCq 0 fun c => { c with k := 3, l := 100, unannounced := 1 };
      (s.cq 0).unannounced + 1 < (s.cq 0).k.toNat ∧ (s.cq 0).l ≠ 0) ∧
    (up.cq 0).k.toNat ≤ (up.cq 0).unannounced + 1 ∧ ((rings .running).cq 0).state = .running ∧
    (up.cq 0).timer = none ∧
    (let s := up.modCq 0 fun c => { c with l := 100, timer := some 999900 };
      (s.cq 0).timer = some 999900 ∧ (s.cq 0).l.toNat ≤ (s.timebase - 999900).toNat) ∧
    ((1000000 : Word) - 999901).toNat < (100 : Half).toNat :=
  ⟨fun _ _ => flies rfl, by decide, fun _ => by unfold EndsAs; simp [statusAccess, access, Xfer.brings],
    rfl, by decide, by decide, by decide, by decide, by decide, by decide⟩

/-- Port 0 in a state, and in a wait of the recovery procedure. -/
def portIn (x : PortState) (r : Recovery) : State :=
  up.modPort 0 fun P => { P with state := x, recovery := r }

theorem witness_MonitorFollowsTheBus :
    (Awake up ∧ (up.port 0).tgt.disableTold = false ∧ (up.port 0).state = .off) ∧
    (Running (portIn .idle .none) ∧ ((portIn .idle .none).port 0).state = .idle) ∧
    (let s := attempt .opening 0 0;
      (s.port 0).state = .master ∧ (s.port 0).eng.phase = .opening ∧
        (s.port 0).eng.outcome = none ∧ (s.port 0).eng.quiet = false ∧
        (s.port 0).inService = some 0 ∧ s.txn 0 = some (txn worked .active) ∧
        (s.port 0).disablePending = false ∧
        (txn worked .active).arbUsed < (request worked).arbRetries.toNat) ∧
    (let s := attempt .receiving 1 0;
      (s.port 0).state = .master ∧ (s.port 0).inService = some 0 ∧
        s.txn 0 = some (txn worked .active) ∧ (s.port 0).eng.phase = .receiving ∧
        (s.port 0).eng.outcome = none ∧ (s.port 0).eng.quiet = false ∧
        (s.port 0).disablePending = false ∧ Running s ∧ (s.port 0).enabling = false ∧
        s.commandAt (.port 0 .enable) = false) ∧
    (((attempt .checking 1 2).port 0).eng.phase = .checking ∧
      ((txn worked .active).req.seg 1).kind ≠ .write) ∧
    (((portIn .recovering (.finalWait 5)).port 0).state = .recovering ∧
      ((portIn .recovering (.finalWait 5)).port 0).recovery = .finalWait 5) ∧
    (((portIn .observing .none).port 0).state = .observing ∧
      ((portIn .observing .none).port 0).enabling = false ∧
      (portIn .observing .none).commandAt (.port 0 .enable) = false) ∧
    (((portIn .observing .none).modPort 0 fun P => { P with enabling := true }).port 0).enabling =
      true ∧
    (((1000000 : Word) - 999951).toNat < (up.port 0).cfg.idleTime.toNat * 10 ∧
      (up.port 0).cfg.idleTime.toNat * 10 ≤ ((1000000 : Word) - 999950).toNat) ∧
    (commanded up (entry []) (.port 0 .enable)).mgmt.command =
      some { entry := entry [], phase := .port 0 .enable } := by decide

/-- Another device's START or STOP inside a byte the engine receives is a loss (R71). -/
theorem test_busStartSeen :
    after? (exec (.busStartSeen 0) (attempt .receiving 1 0)) (fun u =>
      (u.port 0).state == .observing && !(u.port 0).busFree && (u.port 0).awaitAddr &&
        (u.port 0).stats.arbLosses == 1 && (u.port 0).eng == Engine.reset) = true := by decide
theorem test_busStopSeen :
    after? (exec (.busStopSeen 0) (attempt .receiving 1 0)) (fun u =>
      (u.port 0).state == .idle && (u.port 0).busFree && !(u.port 0).awaitAddr &&
        (u.port 0).stats.arbLosses == 1 && (u.port 0).eng == Engine.reset) = true := by decide

theorem witness_TimeoutsExpire :
    (((up.modPort 0 fun P => { P with cfg := { P.cfg with busTimeout := 0 } }).port 0).cfg.busTimeout
        = 0 ∧ (up.port 0).state ∈ [PortState.off, .recovering, .faulted] ∧
      halted.link.ctrl = .halted ∧
      ((1000000 : Word) - 975001).toNat < (up.port 0).cfg.busTimeout.toNat * 1000) ∧
    (let s := portIn .idle .none;
      Running s ∧ (s.port 0).cfg.busTimeout ≠ 0 ∧
        (s.port 0).state ∈ [PortState.idle, .observing, .master, .target] ∧
        (s.port 0).cfg.busTimeout.toNat * 1000 ≤ ((1000000 : Word) - 975000).toNat ∧
        (s.port 0).tgt.transfer = .none ∧ (s.port 0).tgt.disableTold = false ∧
        (s.port 0).eng.quiet = false ∧ (s.port 0).cfg.recovery = true ∧
        (s.port 0).eng.phase = .none ∧ (s.port 0).inService = none) ∧
    ((up.modPort 0 fun P => { P with cfg := { P.cfg with recovery := false } }).port 0).cfg.recovery =
      false ∧
    (let s := attempt .sending 0 0;
      (s.port 0).eng.phase ≠ .none ∧
        (txn worked .active).state = .active ∧ (s.port 0).inService = some 0 ∧
        s.txn 0 = some (txn worked .active) ∧ (s.port 0).eng.readCount = 0) ∧
    CanPost (attempt .sending 0 0) 0 (txn worked .active) :=
  ⟨by decide, by decide, by decide, by decide, canPost _ _ _ _ _⟩

theorem witness_RecoveryRuns :
    (∀ r, Running (portIn .recovering r) ∧
      ((portIn .recovering r).port 0).tgt.disableTold = false ∧
      ((portIn .recovering r).port 0).inService = none ∧
      ((portIn .recovering r).port 0).recovery = r) ∧
    (8 : Nat) + 1 ≥ 9 ∧ (7 : Nat) + 1 < 9 ∧ 10000 ≤ ((1000000 : Word) - 990000).toNat ∧
    ((1000000 : Word) - 990001).toNat < 10000 ∧
    (up.port 0).cfg.idleTime.toNat * 10 ≤ ((1000000 : Word) - 999950).toNat ∧
    ((1000000 : Word) - 999951).toNat < (up.port 0).cfg.idleTime.toNat * 10 := by
  refine ⟨fun r => ⟨⟨rfl, rfl⟩, rfl, rfl, rfl⟩, ?_⟩
  decide

/-- Port 0 in step, OBSERVING with an address byte to come, its slots as in `slotted`. -/
def addressed (T : Target → Target) : State :=
  (slotted [] .loaded).modPort 0 fun P => { P with
    state := .observing, awaitAddr := true, inStep := true,
    cfg := { P.cfg with targetEnable := true, generalCall := true }, tgt := T P.tgt }
def buffer : RxBuffer := ⟨0x2000, 16, 9, 0⟩

theorem witness_AddressesAreJudged :
    (Running up ∧ (up.port 0).state ≠ .observing) ∧
    (let s := addressed id;
      Running s ∧ (s.port 0).state = .observing ∧ (s.port 0).awaitAddr = true ∧
        (s.port 0).cfg.targetEnable = true ∧ (s.port 0).inStep = true ∧
        (s.port 0).tgt.disableTold = false ∧ matchAddress (s.port 0).cfg 0xFE = none) ∧
    (let c := ((addressed id).port 0).cfg;
      (c.slots.get 0).role = .image ∧ (c.slots.get 0).addr = (0x20 : Byte).extractLsb' 1 7 ∧
      (∀ i : OwnId, i < 0 → (c.slots.get i).role = .off) ∧ (0x20 : Byte).getLsbD 0 = false ∧
      (0x21 : Byte).getLsbD 0 = true ∧
      (c.slots.get 2).role = .mailbox ∧ (c.slots.get 2).addr = (0x22 : Byte).extractLsb' 1 7 ∧
      (∀ i : OwnId, i < 2 → (c.slots.get i).role = .off ∨
        (c.slots.get i).addr ≠ (0x22 : Byte).extractLsb' 1 7) ∧
      c.generalCall = true ∧ ∀ i : OwnId, (c.slots.get i).role = .off ∨ (c.slots.get i).addr ≠ 0) ∧
    (((addressed id).port 0).tgt.replies.get 2).state = .loaded ∧
    (((addressed fun T => { T with replies := T.replies.set 2 Reply.reset }).port
      0).tgt.replies.get 2).state ≠ .loaded ∧
    (let T := ((addressed fun T => { T with atHand := .present buffer }).port 0).tgt;
      T.atHand = .present buffer ∧ T.staging = .free) ∧
    ((addressed fun T => { T with atHand := .fetching }).port 0).tgt.atHand = .fetching ∧
    ((addressed fun T => { T with staging := .posting }).port 0).tgt.staging = .posting ∧
    (let s := addressed fun T => { T with atHand := .wanted };
      (s.port 0).tgt.atHand = .wanted ∧ s.rx.posted = s.rx.taken) := by decide

def message (n : Nat) : Message :=
  { buffer := buffer, who := .own 2, addr := 0x11, addrTime := 0, endTime := 0, bytes := zeros n,
    truncated := false, endedByRestart := false, abandoned := false }

theorem witness_TargetBytesPass :
    Running up ∧
    (∀ x, ((addressed fun T => { T with transfer := x }).port 0).tgt.transfer = x) ∧
    (∀ x, ((addressed fun T => { T with staging := x }).port 0).tgt.staging = x) ∧
    (message 15).bytes.length < (message 15).buffer.cap.toNat ∧
    (message 16).buffer.cap.toNat ≤ (message 16).bytes.length ∧
    (up.port 0).tgt.transfer = .none :=
  ⟨by decide, fun _ => rfl, fun _ => rfl, by decide, by decide, by decide⟩

theorem witness_TransfersEnd :
    (∀ x, let s := addressed fun T => { T with transfer := x };
      Awake s ∧ Running s ∧ (s.port 0).tgt.disableTold = false ∧ (s.port 0).tgt.held = none ∧
      s.commandAt (.port 0 .enable) = false ∧ s.link.ctrl ≠ .stopping ∧
      (s.port 0).tgt.transfer = x) ∧
    (Transfer.imageRead 0 true).sends = false ∧
    (∀ x, ((addressed fun T => { T with held := x }).port 0).tgt.held = x) ∧
    (commanded up (entry []) (.update 0)).mgmt.command =
      some { entry := entry [], phase := .update 0 } ∧
    0 < (((addressed id).port 0).tgt.replies.get 2).bytes.length ∧
    (((addressed id).port 0).tgt.replies.get 2).bytes.length ≤ 1 ∧
    (∀ x, ((addressed fun T => { T with staging := x }).port 0).tgt.staging = x) ∧
    (message 1).bytes ≠ [] ∧
    (((1000000 : Word) - 999901).toNat < (up.port 0).cfg.stretch.toNat * 10 ∧
      (up.port 0).cfg.stretch.toNat * 10 ≤ ((1000000 : Word) - 999900).toNat) ∧
    (∀ x, ((addressed fun T => { T with atHand := x }).port 0).tgt.atHand = x) ∧
    InFlight (· == .targetDrain 0) 0 (flying (rings .running) (statusAccess (.targetDrain 0) false))
      (statusAccess (.targetDrain 0) false) [] ∧
    EndsAs (statusAccess (.targetDrain 0) false) true 0 ∧
    EndsAs (statusAccess (.targetDrain 0) false) false 0 ∧
    ((rings .running).port 0).tgt.records = [] ∧
    ((rings .running).cq (message 1).buffer.cq).state = .running ∧
    (rings .running).comp.holding.length < 32 ∧ 32 ≤ (holding 31).comp.holding.length := by
  refine ⟨fun _ => ⟨rfl, ⟨rfl, rfl⟩, rfl, rfl, rfl, nofun, rfl⟩, rfl, fun _ => rfl, rfl, by decide,
    by decide, fun _ => rfl, by decide, by decide, fun _ => rfl, flies rfl, ?_, ?_, by decide,
    by decide, by decide, by decide⟩ <;> unfold EndsAs <;> decide

/-- Port 0 wants a buffer for CQ0, or is being served; the ring has a buffer posted. -/
def wanting (x : AtHand) (f : Option (PortId × CqId)) : State :=
  { (rings .running).modPort 0 fun P => { P with
      cfg := { P.cfg with rxCq := some 0 }, tgt := { P.tgt with atHand := x } } with
    rx := { (rings .running).rx with posted := 1, fetch := f } }
def ringRead : Access := access .rxEntry (.read [(0, 16)]) false
/-- Ring entries with a capacity. -/
def ringEntry (lo hi : Byte) : Vector Byte 16 :=
  Vector.ofFn fun i => if i.val = 8 then lo else if i.val = 9 then hi else 0

theorem witness_BuffersAreFetched :
    (Awake up ∧ Running up ∧ up.rx.state ≠ .running) ∧
    (let s := wanting .wanted none;
      Running s ∧ s.rx.state = .running ∧
        s.rx.fetch = none ∧ s.rx.waiting = none ∧ s.rx.posted ≠ s.rx.taken ∧
        (s.rx.posted - s.rx.taken).toNat ≤ s.rx.size.toNat ∧
        after s.rx.lastServed = [] ++ 0 :: [1, 2, 3] ∧ (s.port 0).tgt.atHand = .wanted ∧
        (s.port 0).cfg.rxCq = some 0) ∧
    InFlight (· == .rxEntry) 0 (flying (wanting .fetching (some (0, 0))) ringRead) ringRead [] ∧
    EndsAs ringRead true 16 ∧
    (let s := wanting .fetching (some (0, 0));
      s.link.ctrl ≠ .stopping ∧ s.rx.fetch = some (0, 0) ∧ (s.port 0).tgt.atHand = .fetching ∧
        s.rx.state = .running ∧ (s.cq 0).state = .running ∧ s.comp.holding.length < 32 ∧
        s.rx.waiting = none) ∧
    (16 ≤ (rd16 (ringEntry 16 0).toList 8).toNat ∧ (rd16 (ringEntry 0 16).toList 8).toNat ≤ 4096 ∧
      (rd16 (ringEntry 15 0).toList 8).toNat < 16 ∧
      4096 < (rd16 (ringEntry 1 16).toList 8).toNat) ∧
    InFlight (· == .rxStatus) 0 (flying up (statusAccess .rxStatus false))
      (statusAccess .rxStatus false) [] ∧
    (statusAccess .rxStatus false).forCommand = false ∧
    EndsAs (statusAccess .rxStatus false) true 0 := by
  refine ⟨by decide, by decide, flies rfl, ?_, by decide, by decide, flies rfl, rfl, ?_⟩ <;>
    unfold EndsAs <;> decide

/-- T4 as an ALERT entry of port 0. -/
def watching (held : Half) (latched : Option Word) (due : List TrigId) : State :=
  let s := up.modTrigger 4 fun E => { E with
    state := .armed, kind := .alert, template := some (request worked), holdoffCtr := held,
    latched := latched }
  { s with trig := { s.trig with tickDue := due } }

theorem witness_TriggersExpire :
    (Running up ∧ up.trig.prescaler = none) ∧
    ((poll false 0).trig.tickDue ≠ [] ∧
      ((1000000 : Word) - 999001).toNat < up.trig.tp.toNat + 1) ∧
    (let s := { poll false 0 with
        trig := { (poll false 0).trig with tickDue := [], prescaler := some 999000 } };
      s.trig.tickDue = [] ∧ s.trig.prescaler = some 999000 ∧
        s.trig.tp.toNat + 1 ≤ (s.timebase - 999000).toNat ∧ (s.trigger 4).state = .armed ∧
        (s.trigger 4).kind = .periodic ∧ (s.trigger 5).state ≠ .armed) ∧
    (let s := poll false 0;
      (s.trigger 4).template = some (request worked) ∧ s.trig.tickDue.head? = some 4 ∧
        (s.trigger 4).outstanding = false ∧ s.freeTriggerSlot = some 56 ∧
        (s.port (portOf (request worked).port)).list.length < 32 ∧ (s.trigger 4).oneShot = false) ∧
    up.trig.tickDue.head? ≠ some 4 ∧
    ((poll true 0).trigger 4).outstanding = true ∧
    (((poll true 0).modTrigger 4 fun E => { E with oneShot := true, reportSkips := false }).trigger
      4).oneShot = true ∧
    (let s := watching 0 none [];
      (s.trigger 4).state = .armed ∧ (s.trigger 4).kind = .alert ∧ (s.trigger 4).alertPort = 0 ∧
        (s.trigger 4).alertMode = .edge ∧
        (∀ w, w ≠ 4 → (s.trigger w).state ≠ .armed ∨ (s.trigger w).kind = .periodic ∨
          (s.trigger w).alertPort ≠ 0) ∧ s.heldOff 4 = false ∧ s.freeTriggerSlot = some 56) ∧
    ((watching 1 none []).heldOff 4 = true ∧ ((watching 1 none []).trigger 4).latched = none) ∧
    (((watching 1 (some 7) []).trigger 4).latched ≠ none ∧
      ((watching 1 (some 7) []).trigger 4).reportSkips = false) ∧
    (let s := watching 0 (some 7) [4];
      s.trig.tickDue.head? = some 4 ∧ 4 ∉ s.trig.tickDue.tail ∧
        (s.trigger 4).outstanding = false ∧ (s.trigger 4).holdoffCtr = 0 ∧
        (s.trigger 4).holdoffEnded = false ∧ (s.trigger 4).latched = some 7) := by decide

theorem witness_InstancesComplete :
    (let s := (poll true 0).modTrigger 4 fun E => { E with failLimit := 1 };
      Result.addrNack ≠ .ok ∧ (s.trigger 4).state = .armed ∧ (s.trigger 4).failLimit ≠ 0 ∧
        ((completeInstance 4 .addrNack (zeros 8) s).trigger 4).consecutive =
          (s.trigger 4).failLimit) ∧
    (((watching 0 none []).trigger 4).state = .armed ∧
      ((watching 0 none []).trigger 4).kind = .alert) := by decide

theorem witness_ListsAndSlotsStayBounded :
    let s := serving .running worked .ready .idle Engine.reset
    HoldingBounded s ∧ ListsBounded s ∧ ServedIsFirst s ∧ SlotKinds s ∧ RestsUntilRunning s ∧
      (s.port 0).inService = some 0 ∧ ∃ t, step s = .next t := by
  refine ⟨by unfold HoldingBounded; decide, by unfold ListsBounded; decide, fun p k h => ?_,
    ⟨fun k t h => ?_, nofun⟩, (fun h => by rcases h with h | h <;> cases h), rfl, _, rfl⟩
  · fin_cases p <;> exact h
  · fin_cases k <;> first | (cases h; rfl) | cases h

/-! ### Witnesses: stops, losses, suppression, holds, held updates and LEVEL entries -/

/-- An attempt in OPENING before its START, one in BETWEEN, and a MASTER that is not at rest. -/
theorem witness_StopLeavesTheBuses_attempts :
    (∀ ph, Awake (attempt ph 0 0) ∧ (attempt ph 0 0).link.ctrl = .running ∧
      ((attempt ph 0 0).port 0).inService = some 0 ∧
      (attempt ph 0 0).txn 0 = some (txn worked .active) ∧
      ((attempt ph 0 0).port 0).eng.phase = ph) ∧
    ((attempt .opening 0 0).port 0).eng.restart = false :=
  ⟨fun _ => ⟨rfl, rfl, rfl, rfl, rfl⟩, rfl⟩

theorem witness_StopCompletes_atWork :
    (let s := (at_ .stopping).modPort 3 fun P => { P with sdaDriven := true };
      Awake s ∧ s.accesses = [] ∧ (s.port 3).sclDriven = false ∧ (s.port 3).sdaDriven = true) ∧
    (let s := serving .stopping worked .active .master (engine .closing 0 0);
      Awake s ∧ s.accesses = [] ∧ (s.port 0).sclDriven = false ∧ (s.port 0).eng.phase ≠ .none) := by
  decide

def mqRead : Access := access .mqEntry (.read [(0, 64)]) false

/-- An MQ entry read and a status word write in flight: the last is told after the first. -/
theorem witness_BusMasteringChanges_inFlight :
    (let s : State := { up with accesses := [headerAccess] ++ [mqRead] };
      Awake s ∧ s.accesses = [headerAccess] ++ [mqRead] ∧
        ∃ u, exec (.busMasteringChange false) (s.inFlight [headerAccess]) = .next u) ∧
    FailingEnd mqRead (.mqEntryReadEnd false (Vector.replicate 64 0)) ∧
    (flying up mqRead).accesses = [mqRead] ∧ mqRead.kind = .mqEntry ∧ up.link.ctrl = .running :=
  ⟨⟨rfl, rfl, _, rfl⟩, ⟨rfl, rfl⟩, rfl, rfl, rfl⟩

/-- Bus mastering disabled fails an MQ entry read in flight, which halts the controller (R185, R169). -/
theorem test_busMasteringChange :
    after? (exec (.busMasteringChange false) (flying up mqRead)) (fun s =>
      s.link.ctrl == .halted && s.link.haltFault == .mqFetch && !s.link.busMaster) = true := by decide

/-- RQ3 holds the transaction of slot 1 for port 0, whose list has one marked transaction of RQ0. -/
def holdingFor (fence : Bool) (n : Nat) : State :=
  (((listedOne worked .idle).modTxn 0 fun t => { t with mark := some .aborted }).setSlot 1
    (.txn { txn worked .held with req := { request worked with fence := fence }, origin := .rq 3 })).modRq 3
    fun c => { c with hold := some 1, openCount := n }

theorem witness_DispatchTakesTheFirst_hold :
    (let s := holdingFor true 1;
      Running s ∧ (s.port 0).inService = none ∧ (s.port 0).disablePending = false ∧
        (s.port 0).list = 0 :: [] ∧
        s.txn 0 = some { txn worked .waiting with mark := some .aborted } ∧
        (s.cq 0).state = .running ∧ s.comp.holding.length < 32 ∧
        after (s.fetch.placed.get 0) = [0, 1, 2] ++ 3 :: [4, 5, 6, 7] ∧
        (∀ x ∈ [(0 : RqId), 1, 2], (s.rq x).hold = none) ∧ (s.rq 3).hold = some 1 ∧
        (s.txn 1).map (fun v => (v.port, v.req.urgent, v.req.fence)) = some (0, false, true) ∧
        (s.rq 3).openCount ≤ 1) ∧
    2 ≤ ((holdingFor true 2).rq 3).openCount := by decide

theorem test_dispatch_hold :
    after? (exec (.dispatch 0) (holdingFor true 1)) (fun u =>
      (u.port 0).list == [1] && (u.rq 3).hold.isNone && u.fetch.placed.get 0 == 3) = true ∧
    after? (exec (.dispatch 0) (holdingFor true 2)) (fun u =>
      (u.port 0).list == [] && (u.rq 3).hold == some 1) = true := by decide

/-- The worked request with SUPPRESS, in service on port 0, from RQ0 RUNNING with one entry open. -/
def suppressed (x : TxnState) (E : Engine) : State :=
  ((serving .running worked x .master E).modTxn 0 fun t =>
    { t with req := { t.req with suppress := true } }).modRq 0 fun c =>
      { c with state := .running, openCount := 1 }

theorem witness_Suppressed :
    (∀ x E, LeavesAlone (suppressed x E) 0 ∧ Live (suppressed x E) ∧
      ((suppressed x E).port 0).inService = some 0 ∧ ((suppressed x E).port 0).eng = E ∧
      (suppressed x E).txn 0 =
        some { txn worked x with req := { request worked with suppress := true } } ∧
      ((suppressed x E).rq 0).state ≠ .deleting) ∧
    (txn worked .draining).result = .ok ∧
    ((engine .closing 1 0).outcome = none ∧ (1 : Nat) + 1 = (request worked).nseg.toNat ∧
      (engine .closing 1 0).readCount = 0 ∧ (engine .closing 1 0).quiet = false) := by
  refine ⟨fun _ _ => ⟨⟨fun q => by fin_cases q <;> rfl, rfl⟩, ⟨rfl, .inl rfl⟩, rfl, rfl, rfl, nofun⟩,
    by decide, by decide⟩

theorem test_suppressed :
    after? (exec (.masterStopComplete 0) (suppressed .active (engine .closing 1 0))) (fun u =>
      u.slots.get 0 == .free && u.comp.holding.isEmpty && (u.rq 0).openCount == 0 &&
        (u.port 0).list == []) = true := by decide

/-- An attempt that makes its repeated START. -/
def restarting : State :=
  serving .running worked .active .master { engine .opening 0 0 with restart := true, writeCount := 1 }

theorem witness_AttemptsOpen_losses :
    (∀ s ∈ [attempt .opening 0 0, restarting], Awake s ∧ (s.port 0).eng.phase = .opening ∧
      (s.port 0).inService = some 0 ∧ s.txn 0 = some (txn worked .active) ∧
      (s.port 0).eng.outcome = none ∧ (s.port 0).eng.quiet = false ∧
      (s.port 0).disablePending = false ∧ (s.port 0).eng.readCount = 0) ∧
    ((attempt .opening 0 0).port 0).eng.restart = false ∧ (restarting.port 0).eng.restart = true ∧
    (txn worked .active).arbUsed < (request worked).arbRetries.toNat ∧
    (request worked).arbRetries.toNat ≤ { txn worked .active with arbUsed := 1 }.arbUsed ∧
    CanPost (restarting.modTxn 0 fun t => { t with arbUsed := 1 }) 0
      { txn worked .active with arbUsed := 1 } ∧
    ((attempt .sending 0 0).port 0).eng.phase ≠ .opening :=
  ⟨by decide, rfl, rfl, by decide, by decide,
    ⟨⟨0, rfl⟩, rfl, Nat.zero_lt_succ _, by intro q; fin_cases q <;> rfl, rfl⟩, by decide⟩

/-- A repeated START lost with no retry left ends ARB_LOST, detail RESTART, with the segment being opened
(R68, R78). -/
theorem test_repeatedStart_lost :
    after? (exec (.repeatedStart 0 false) (restarting.modTxn 0 fun t => { t with arbUsed := 1 }))
      (fun u => (match u.txn 0 with
        | some t => t.result == .arbLost && t.detail == 4 && t.segIndex == 1 && t.writeCount == 1
        | none => false) && (u.port 0).state == .observing && u.comp.holding.length == 1) = true := by
  decide

/-- The attempt at its address byte, on a port in step with an image at address 10h. -/
def contested : State := (attempt .addressing 0 0).modPort 0 fun P =>
  { P with inStep := true, cfg := ((addressed id).port 0).cfg }

theorem witness_AttemptsEnd_judged :
    Running contested ∧ (contested.port 0).inService = some 0 ∧
    contested.txn 0 = some (txn worked .active) ∧ (contested.port 0).eng.phase = .addressing ∧
    (contested.port 0).eng.outcome = none ∧ (contested.port 0).eng.quiet = false ∧
    (contested.port 0).tgt.disableTold = false ∧ (contested.port 0).disablePending = false ∧
    (txn worked .active).arbUsed < (request worked).arbRetries.toNat := by decide
theorem witness_AttemptsEnd_judgedLast :
    let s := contested.modTxn 0 fun t => { t with arbUsed := 1 }
    (request worked).arbRetries.toNat ≤ { txn worked .active with arbUsed := 1 }.arbUsed ∧
    (s.port 0).eng.readCount = 0 ∧ CanPost s 0 { txn worked .active with arbUsed := 1 } :=
  ⟨by decide, rfl, ⟨0, rfl⟩, rfl, Nat.zero_lt_succ _, by intro q; fin_cases q <;> rfl, rfl⟩

/-- The winner addresses the image of the port's first slot, and the port is its target (R78, R148). -/
theorem test_arbitrationLoss_judged :
    after? (exec (.arbitrationLoss 0 .address 0x20) contested) (fun u =>
      (u.port 0).state == .target && (u.port 0).stats.arbLosses == 1) = true := by decide

/-- The record of slot 0 being written while RQ0 holds the transaction of slot 1. -/
def writingHeld (fence : Bool) (n : Nat) : State :=
  ((writing (some 0)).setSlot 1 (.txn
    { txn worked .held with req := { request worked with fence := fence } })).modRq 0
    fun c => { c with hold := some 1, openCount := n }

theorem witness_RecordsAreWritten_hold :
    (∀ n, let s := writingHeld true n;
      s.comp.writer = .record (held 0 (some 0)) ∧ s.txn 0 = some (txn worked .recorded) ∧
        (s.rq 0).state ≠ .deleting ∧ (s.rq 0).hold = some 1 ∧ (s.rq 0).openCount = n ∧
        s.txn 1 = some { txn worked .held with req := { request worked with fence := true } } ∧
        (s.port 0).list.length < 32) ∧
    (txn worked .recorded).origin = .rq 0 ∧
    InFlight (· == .cqRecord) 0 (writingHeld true 2) (statusAccess .cqRecord false) [] ∧
    32 ≤ (((writingHeld false 2).modPort 0 fun P =>
      { P with list := List.replicate 32 0 }).port 0).list.length ∧
    (∃ t, ((writing (some 56)).setSlot 56 (.txn
        { txn worked .recorded with origin := .trigger 4 })).txn 56 = some t ∧
      t.origin = .trigger 4) :=
  ⟨fun _ => ⟨rfl, rfl, nofun, rfl, rfl, rfl, Nat.one_lt_succ_succ _⟩, rfl, ⟨[], [], rfl, rfl, rfl, rfl⟩,
    by decide, _, rfl, rfl⟩

theorem test_recordWriteEnd_hold :
    after? (exec (.recordWriteEnd true) (writingHeld true 2)) (fun u =>
      (u.port 0).list == [0, 1] && (u.rq 0).hold.isNone && (u.rq 0).openCount == 1) = true ∧
    after? (exec (.recordWriteEnd true) (writingHeld true 3)) (fun u =>
      (u.port 0).list == [0] && (u.rq 0).hold == some 1 && (u.rq 0).openCount == 2) = true := by
  decide

/-- A transfer of port 0, with an update that waits for its end. -/
def updating (x : Transfer) (h : HeldUpdate) : State :=
  commanded (addressed fun T => { T with transfer := x, held := some h }) (entry []) (.update 0)

theorem witness_TransfersEnd_held :
    (∀ x h, let s := updating x h; Running s ∧ (s.port 0).tgt.disableTold = false ∧
      s.commandAt (.port 0 .enable) = false ∧ (s.port 0).tgt.transfer = x ∧
      (s.port 0).tgt.held = some h ∧
      s.mgmt.command = some { entry := entry [], phase := .update 0 }) ∧
    (((updating (.replyRead 2 0 false) (.reply 2 [9])).port 0).tgt.replies.get 2).bytes.length = 1 :=
  ⟨fun _ _ => ⟨⟨rfl, rfl⟩, rfl, rfl, rfl, rfl, rfl⟩, by decide⟩

/-- A reply read to its end counts and latches, and the held reply is LOADED (R154). -/
theorem test_targetTransferEnd_held :
    after? (exec (.targetTransferEnd 0 .restart) (updating (.replyRead 2 1 true) (.reply 2 [9])))
      (fun u => (u.port 0).tgt.replies.get 2 == ⟨.loaded, [9]⟩ && (u.port 0).tgt.held.isNone &&
        (u.port 0).stats.repliesTaken == 1 && u.mgmt.command.isNone && u.mgmt.due.isSome) = true := by
  decide

/-- T4 as a LEVEL entry of port 0, in a state of its own. -/
def levelled (held : Half) (due : List TrigId) (f : Trigger → Trigger) : State :=
  (watching held none due).modTrigger 4 fun E => f { E with alertMode := .level }
def filled (s : State) : State := s.modPort 0 fun P => { P with list := List.replicate 32 1 }

theorem witness_TriggersExpire_level :
    (let s := levelled 0 [] id;
      Running s ∧ (s.trigger 4).template = some (request worked) ∧ (s.trigger 4).state = .armed ∧
        (s.trigger 4).kind = .alert ∧ (s.trigger 4).alertPort = 0 ∧
        (s.trigger 4).alertMode = .level ∧ (s.trigger 4).reportSkips = false ∧
        (∀ w, w ≠ 4 → (s.trigger w).state ≠ .armed) ∧ s.heldOff 4 = false ∧
        s.freeTriggerSlot = some 56 ∧ (s.port 0).list.length < 32) ∧
    (levelled 1 [] id).heldOff 4 = true ∧ 32 ≤ ((filled (levelled 0 [] id)).port 0).list.length ∧
    (let s := levelled 0 [4] id;
      s.trig.tickDue.head? = some 4 ∧ 4 ∉ s.trig.tickDue.tail ∧ (s.trigger 4).outstanding = false ∧
        (s.trigger 4).holdoffCtr = 0 ∧ (s.trigger 4).holdoffEnded = false) ∧
    (let s := levelled 0 [] fun E => { E with holdoffEnded := true };
      4 ∉ s.trig.tickDue ∧ (s.trigger 4).holdoffEnded = true ∧ (s.trigger 4).outstanding = false) ∧
    ((1 : BitVec 4).getLsbD (0 : PortId).val = true) := by decide

theorem test_endOfHoldoff_level :
    after? (exec (.endOfHoldoff 4 true) (levelled 0 [4] id)) (fun u =>
      (u.trigger 4).outstanding && (u.trigger 4).sequence == 1 && (u.port 0).list == [56]) = true ∧
    after? (exec (.endOfHoldoff 4 false) (levelled 0 [4] id)) (fun u =>
      !(u.trigger 4).outstanding && (u.trigger 4).sequence == 0 && u.trig.tickDue == []) = true := by
  decide

theorem witness_TriggersExpire_skips :
    (let s := poll true 2;
      (s.trigger 4).template = some (request worked) ∧ (s.trigger 4).kind = .periodic ∧
        s.trig.tickDue.head? = some 4 ∧ (s.trigger 4).oneShot = false ∧
        (s.trigger 4).outstanding = true ∧ (s.trigger 4).reportSkips = true ∧
        (s.cq (s.trigger 4).cq).state = .running ∧ s.comp.holding.length < 32) ∧
    (let s := filled (poll false 2);
      (s.trigger 4).outstanding = false ∧ 32 ≤ (s.port (portOf (request worked).port)).list.length) ∧
    32 ≤ (holding 31).comp.holding.length ∧
    ((poll true 2).modCq 0 fun c => { c with state := .error }).cqs.get 0 ≠ (poll true 2).cqs.get 0 := by
  decide

/-- A full pending list skips with NO_ROOM, whose record has skip detail 2 (R131, R132). -/
theorem test_periodicExpiry_noRoom :
    after? (exec (.periodicExpiry 4) (filled (poll false 2))) (fun u =>
      !(u.trigger 4).outstanding && (u.trigger 4).skips == 1 && (u.trigger 4).reports == 1 &&
        u.comp.holding.map (fun e => e.record) ==
          [skippedRecord 4 (request worked) 2 2 999999 1000000]) = true := by decide

theorem witness_EnableAndDisableTriggers_level :
    let s := commanded (levelled 0 [] fun E => { E with state := .disabled })
      (entry [(0, 0x0E), (8, 0x10)]) .execute
    Executing 0x0E (entry [(0, 0x0E), (8, 0x10)]) s ∧
    (rd32 (entry [(0, 0x0E), (8, 0x10)]) 8).getLsbD (4 : TrigId).val = true ∧
    (∀ t : TrigId, (rd32 (entry [(0, 0x0E), (8, 0x10)]) 8).getLsbD t.val = true →
      (s.trigger t).state ≠ .empty) ∧
    (s.trigger 4).state = .disabled ∧ (s.trigger 4).kind = .alert ∧
    (s.trigger 4).alertMode = .level ∧ (s.trigger 4).outstanding = false ∧
    (s.trigger 4).template = some (request worked) ∧ 4 ∉ s.trig.tickDue ∧
    s.freeTriggerSlot = some 56 ∧ (s.port 0).list.length < 32 := by decide

/-- The last byte of an instance of T4 read, its STOP to come. -/
def concluding (mode : ReportMode) : State :=
  let s := (poll false 0).modTrigger 4 fun E => { E with outstanding := true, mode := mode }
  (s.setSlot 56 (.txn
    { newInstance 4 (s.trigger 4) (request worked) 5 6 7 with state := .active })).modPort 0 fun P =>
    { P with
      list := [56], inService := some 56, state := .master, inbound := [(1, 3)],
      eng := { engine .closing 1 0 with outcome := some (.result .ok 0), readCount := 1 } }

theorem witness_InstancesComplete_stop :
    (∀ m, let s := concluding m;
      Awake s ∧ (s.port 0).inService = some 56 ∧ (s.port 0).eng.phase = .closing ∧
        (s.port 0).eng.outcome = some (.result .ok 0) ∧ (s.port 0).eng.quiet = false ∧
        (s.port 0).tgt.disableTold = false ∧ LeavesAlone s 0 ∧
        (∃ x d, s.txn 56 = some x ∧ x.origin = .trigger 4 ∧ x.trig = some d ∧
          (s.cq x.cq).state = .running) ∧ s.comp.holding.length < 32) ∧
    reportDecision ((concluding .always).trigger 4) .ok (zeros 8) = true ∧
    reportDecision ((concluding .onError).trigger 4) .ok (zeros 8) = false := by
  refine ⟨fun _ => ⟨rfl, rfl, rfl, rfl, rfl, rfl, ⟨fun q => by fin_cases q <;> rfl, rfl⟩,
    ⟨_, _, rfl, rfl, rfl, rfl⟩, Nat.zero_lt_succ _⟩, by decide, by decide⟩

theorem test_instanceComplete :
    after? (exec (.masterStopComplete 0) (concluding .always)) (fun u =>
      (u.txn 56).isSome && u.comp.holding.length == 1 && (u.trigger 4).reports == 1) = true ∧
    after? (exec (.masterStopComplete 0) (concluding .onError)) (fun u =>
      u.slots.get 56 == .free && u.comp.holding.isEmpty && (u.trigger 4).instances == 1) = true := by
  decide

/-! ### Stops, draining, losses with a result, the entry to HALTED and ports told to disable -/

/-- An attempt on port 0 with an engine, its stop request taken with the result decided. -/
def stoppedOn (segs : List Segment) (E : Engine) : State :=
  serving .running segs .active .master
    { E with stopReq := some .aborted, outcome := some (.result .aborted 0) }

/-- The worked attempt, with an engine that a controller stop made quiet. -/
def quieted (E : Engine) : State := serving .stopping worked .active .master { E with quiet := true }

theorem witness_BytesAreSent_stopped :
    (∀ segs E, let s := stoppedOn segs E;
      Awake s ∧ (s.port 0).inService = some 0 ∧ s.txn 0 = some (txn segs .active) ∧
        (s.port 0).eng.stopReq ≠ none ∧ (s.port 0).eng.outcome ≠ none ∧
        (s.port 0).eng.phase = E.phase ∧ (s.port 0).eng.bytePos = E.bytePos ∧
        (s.port 0).eng.segment = E.segment) ∧
    (∀ E, let s := quieted E;
      Awake s ∧ (s.port 0).inService = some 0 ∧ s.txn 0 = some (txn worked .active) ∧
        (s.port 0).eng.quiet = true ∧ (s.port 0).eng.phase = E.phase) ∧
    (engine .addressing 0 0).phase = .addressing ∧ (engine .sending 0 0).phase = .sending ∧
    (engine .sending 0 0).bytePos < ((request worked).seg 0).length.toNat :=
  ⟨fun _ _ => ⟨rfl, rfl, rfl, nofun, nofun, rfl, rfl, rfl⟩, fun _ => ⟨rfl, rfl, rfl, rfl, rfl⟩, rfl, rfl,
    by decide⟩

theorem witness_BytesAreReceived_stopped :
    ((engine .receiving 1 0).phase = .receiving ∧ ((request worked).seg 1).kind ≠ .readCounted) ∧
    (((request [seg .readCounted false 3]).seg 0).kind = .readCounted ∧
      (engine .receiving 0 0).countRecv = none) ∧
    ((engine .checking 1 0).phase = .checking ∧ ((request worked).seg 1).kind ≠ .write) ∧
    ((request [seg .write false 1]).seg 0).kind = .write := by decide

/-- A count byte in hand is refused whatever it says, and counted (R82, R83). -/
theorem test_countByte_stopped :
    after? (exec (.countByte 0 1) (stoppedOn [seg .readCounted false 3] (engine .receiving 0 0)))
      (fun u => let E := (u.port 0).eng
        E.phase == .closing && E.readCount == 1 && E.outcome == some (.result .aborted 0) &&
          (u.port 0).lastAck == some false && (u.port 0).inbound == [(0, 1)]) = true := by decide

/-- A refused address during a stop is counted and uses no retry (R83). -/
theorem test_masterAddressByte_stopped :
    after? (exec (.masterAddressByte 0 false) (stoppedOn worked (engine .addressing 0 0)))
      (fun u => (u.port 0).eng.outcome == some (.result .aborted 0) &&
        (u.port 0).stats.addrNacks == 1 && u.txn 0 == some (txn worked .active)) = true := by decide

theorem witness_AbortMarks_atOnce :
    (let E := (restarting.port 0).eng;
      E.phase = .opening ∧ E.restart = true ∧ E.outcome = none ∧ E.stopReq = none ∧ E.quiet = false) ∧
    (∀ n, Engine.endsAtOnce { engine .between 0 0 with readCount := n }) ∧
    Engine.endsAtOnce (engine .opening 0 0) ∧
    CanPost (aborting .active .master (engine .opening 0 0)) 0 (txn worked .active) ∧
    (engine .opening 0 0).readCount = 0 ∧ { engine .between 0 0 with readCount := 1 }.readCount ≠ 0 :=
  ⟨by decide, fun _ => .inl rfl, .inr ⟨rfl, rfl⟩, canPost_commandServing _ _ _ _, rfl, nofun⟩

theorem witness_GapsAndDeadlinesExpire_atOnce :
    (∀ E, let s := serving .running worked .active .master E;
      Running s ∧ s.txn 0 = some (txn worked .active) ∧ (txn worked .active).port = 0 ∧
        (s.port 0).inService = some 0 ∧ (s.port 0).eng = E ∧ CanPost s 0 (txn worked .active) ∧
        (txn worked .active).mark = none ∧ (txn worked .active).origin = .rq 0 ∧
        (s.timebase - (txn worked .active).takenAt).toNat = 1000000) ∧
    (txn worked .active).req.deadline.toNat * 1000 ≤ 1000000 ∧
    (txn worked .active).req.deadline ≠ 0 :=
  ⟨fun _ => ⟨⟨rfl, rfl⟩, rfl, rfl, rfl, rfl, canPost _ _ _ _ _, rfl, rfl,
      by change ((1000000 : Word) - 0).toNat = 1000000; decide⟩, by decide, by decide⟩

/-- A stop in BETWEEN names the segment that waited, and ends at the STOP that closed the one before; with
bytes read the transaction drains (R82, R51). -/
theorem test_abort_between :
    after? (exec .abort (aborting .active .idle { engine .between 0 0 with closedAt := 999000 }))
      (fun u => (match u.txn 0 with
        | some t => t.result == .aborted && t.segIndex == 1 && t.endTime == 999000
        | none => false) && u.comp.holding.length == 1 && (u.port 0).eng == Engine.reset) = true ∧
    after? (exec (.deadlineExpiry 0) (serving .running worked .active .idle
      { engine .between 0 0 with readCount := 1 })) (fun u =>
      (match u.txn 0 with | some t => t.state == .draining && t.result == .deadline | none => false) &&
        u.comp.holding.isEmpty && u.accesses.length == 1) = true := by decide +kernel

theorem witness_AttemptsEnd_drains :
    (∀ E, let s := serving .running worked .active .master E;
      Awake s ∧ (s.port 0).inService = some 0 ∧ s.txn 0 = some (txn worked .active) ∧
        (s.port 0).tgt.disableTold = false ∧ (s.port 0).disablePending = false ∧
        (s.port 0).eng = E) ∧
    (txn worked .active).origin = .rq 0 ∧
    (let E := { engine .closing 1 0 with readCount := 2 };
      E.phase = .closing ∧ E.outcome = none ∧ E.quiet = false ∧ E.readCount ≠ 0 ∧
        E.segment + 1 = (request worked).nseg.toNat) ∧
    ((stoppedOn worked (engine .sending 0 0)).port 0).eng.stopReq ≠ none ∧
    (let E := { engine .closing 1 0 with
        readCount := 2, outcome := some (.result .overlength 0) };
      E.readCount - 1 ≠ 0 ∧ ((request worked).seg 1).kind ≠ .write) ∧
    ({ engine .receiving 1 0 with readCount := 1 }.readCount ≠ 0 ∧
      (request worked).arbRetries.toNat ≤ { txn worked .active with arbUsed := 1 }.arbUsed) ∧
    (∀ E, ((quieted E).port 0).eng.quiet = true ∧ (quieted E).link.ctrl ≠ .running) :=
  ⟨fun _ => ⟨rfl, rfl, rfl, rfl, rfl, rfl⟩, rfl, by decide, nofun, by decide, by decide,
    fun _ => ⟨rfl, nofun⟩⟩

/-- The last STOP of an attempt that read two bytes: they are written to their segment's range of the
buffer, and the port is IDLE (R51, R53, R8). -/
theorem test_masterStopComplete_drains :
    after? (exec (.masterStopComplete 0) ((serving .running worked .active .master
      { engine .closing 1 0 with readCount := 2 }).modPort 0 fun P =>
        { P with inbound := [(1, 0xAA), (1, 0xBB)] })) (fun u =>
      u.accesses == [access (.draining 0) (.write [(0x1000, [0xAA, 0xBB])]) false].map
        (fun a => { a with issuedAt := 1000000 }) && (u.port 0).state == .idle &&
        (match u.txn 0 with | some t => t.state == .draining && t.readCount == 2 | none => false)) =
      true := by decide

/-- A controller stop's byte-boundary stop ends without a result: no record, the transaction READY (R85). -/
theorem test_masterStopComplete_quiet :
    after? (exec (.masterStopComplete 0) (quieted { engine .closing 1 0 with readCount := 2 }))
      (fun u => u.accesses.isEmpty && u.comp.holding.isEmpty &&
        u.txn 0 == some (txn worked .ready)) = true := by decide

theorem witness_MonitorFollowsTheBus_last :
    (∀ E, let s := (serving .running worked .active .master E).modTxn 0 fun t => { t with arbUsed := 1 };
      (s.port 0).state = .master ∧ (s.port 0).inService = some 0 ∧ (s.port 0).eng = E ∧
        s.txn 0 = some { txn worked .active with arbUsed := 1 } ∧
        (s.port 0).disablePending = false ∧ (s.port 0).tgt.disableTold = false ∧
        CanPost s 0 { txn worked .active with arbUsed := 1 } ∧ (s.port 0).enabling = false ∧
        s.commandAt (.port 0 .enable) = false) ∧
    (request worked).arbRetries.toNat ≤ { txn worked .active with arbUsed := 1 }.arbUsed ∧
    ((engine .opening 0 0).outcome = none ∧ (engine .opening 0 0).quiet = false ∧
      (engine .opening 0 0).readCount = 0) ∧ (restarting.port 0).eng.restart = true ∧
    { engine .receiving 1 0 with readCount := 1 }.readCount ≠ 0 :=
  ⟨fun _ => ⟨rfl, rfl, rfl, rfl, rfl, rfl,
      ⟨⟨0, rfl⟩, rfl, Nat.zero_lt_succ _, by intro q; fin_cases q <;> rfl, rfl⟩, rfl, rfl⟩,
    by decide, by decide, rfl, nofun⟩

theorem witness_TimeoutsExpire_drains :
    (let s := serving .running worked .active .master { engine .receiving 1 0 with readCount := 1 };
      Running s ∧ (s.port 0).cfg.busTimeout ≠ 0 ∧
        (s.port 0).state ∈ [PortState.idle, .observing, .master, .target] ∧
        (s.port 0).cfg.busTimeout.toNat * 1000 ≤ (s.timebase - (s.port 0).clockLowFrom).toNat ∧
        (s.port 0).tgt.transfer = .none ∧ (s.port 0).tgt.disableTold = false ∧
        (s.port 0).eng.quiet = false ∧ (s.port 0).eng.phase ≠ .none ∧
        (s.port 0).inService = some 0 ∧
        s.txn 0 = some (txn worked .active) ∧ (s.port 0).eng.readCount ≠ 0) ∧
    (let s := quieted (engine .sending 0 0);
      Awake s ∧ s.link.ctrl = .stopping ∧ (s.port 0).eng.quiet = true ∧
        (s.port 0).cfg.busTimeout ≠ 0 ∧
        (s.port 0).state ∈ [PortState.idle, .observing, .master, .target] ∧
        (s.port 0).cfg.busTimeout.toNat * 1000 ≤ (s.timebase - (s.port 0).stuckDataFrom).toNat ∧
        (s.port 0).inService = some 0 ∧ s.txn 0 = some (txn worked .active)) := by decide

/-- The last STOP of the worked attempt, as the clock-low timer, with the stuck-data timer, reaches the bus
timeout: the result is decided, nothing was read. -/
def atLimit (recovers : Bool) : State :=
  (serving .running worked .active .master
    { engine .closing 1 0 with outcome := some (.result .ok 0) }).modPort 0 fun P =>
      { P with clockLowFrom := 975000, stuckDataFrom := 999000, cfg := { P.cfg with recovery := recovers } }

theorem witness_TimeoutsExpire_together :
    (∀ b, let s := atLimit b;
      Running s ∧ (s.port 0).cfg.busTimeout ≠ 0 ∧ (s.port 0).tgt.transfer = .none ∧
        (s.port 0).tgt.disableTold = false ∧ (s.port 0).eng.quiet = false ∧
        (s.port 0).eng.phase = .closing ∧ (s.port 0).eng.outcome = some (.result .ok 0) ∧
        (s.port 0).eng.readCount = 0 ∧ (s.port 0).inService = some 0 ∧
        s.txn 0 = some (txn worked .active) ∧ CanPost s 0 (txn worked .active)) ∧
    (txn worked .active).req.suppress = false ∧
    ((atLimit true).port 0).cfg.busTimeout.toNat * 1000 ≤
      ((atLimit true).timebase - ((atLimit true).port 0).clockLowFrom).toNat ∧
    FaultReason.clockLow ∈
      (((portIn .idle .none).modPort 0 fun P => { P with tied := [.clockLow] }).port 0).tied :=
  ⟨fun _ => ⟨⟨rfl, rfl⟩, nofun, rfl, rfl, rfl, rfl, rfl, rfl, rfl, rfl,
      ⟨⟨0, rfl⟩, rfl, Nat.zero_lt_succ _, by intro q; fin_cases q <;> rfl, rfl⟩⟩, rfl, by decide,
    by decide⟩

/-- R96's last case: the STOP taken first, the expiry finds the port IDLE and acts by steps 1, 2 and 5; the
timer that had not reached its limit does not expire, nor does either a microsecond later. -/
theorem test_clockLowTimeout_together :
    after? (exec (.masterStopComplete 0) (atLimit true)) (fun s =>
      (s.port 0).state == .idle && s.comp.holding.length == 1 &&
        after? (exec (.clockLowTimeout 0) s) (fun u =>
          (u.port 0).state == .recovering && (u.port 0).stats.clockLow == 1 &&
            u.comp.holding.length == 1) &&
        after? (exec (.stuckDataTimeout 0) s) (fun u => (u.port 0).state == .idle) &&
        after? (exec (.clockLowTimeout 0) (tickTimebase s)) (fun u =>
          (u.port 0).state == .idle && (u.port 0).stats.clockLow == 0)) = true := by decide +kernel

/-- Port 0 told to disable, in a recovery or with a transfer, while DISABLE PORT waits for it. -/
def toldIn (x : PortState) (r : Recovery) (T : Target → Target) : State :=
  commanded ((portIn x r).modPort 0 fun P =>
    { P with disablePending := true, tgt := T { P.tgt with disableTold := true } })
    (entry [(0, 8)]) (.port 0 .disable)

theorem witness_RecoveryRuns_told :
    ∀ r, let s := toldIn .recovering r id
      Running s ∧ (s.port 0).tgt.disableTold = true ∧ (s.port 0).inService = none ∧
        (s.port 0).state = .recovering ∧ (s.port 0).recovery = r :=
  fun _ => ⟨⟨rfl, rfl⟩, rfl, rfl, rfl, rfl⟩

theorem witness_TransfersEnd_told :
    (∀ x st, let s := toldIn .target .none fun T => { T with transfer := x, staging := st };
      Awake s ∧ Running s ∧ (s.port 0).tgt.disableTold = true ∧ (s.port 0).tgt.transfer = x ∧
        (s.port 0).tgt.staging = st) ∧
    Transfer.imageRead 0 true ≠ .none ∧ (Transfer.imageRead 0 false).sends = true ∧
    (message 1).bytes ≠ [] :=
  ⟨fun _ _ => ⟨rfl, ⟨rfl, rfl⟩, rfl, rfl, rfl⟩, nofun, rfl, by decide⟩

/-- The transfer's STOP, and the end of a recovery, take a port told to disable to OFF, and DISABLE PORT
completes (R59, R94). -/
theorem test_told_off :
    after? (exec (.targetTransferEnd 0 .stop)
      (toldIn .target .none fun T => { T with transfer := .imageRead 0 true })) (fun u =>
      (u.port 0).state == .off && u.mgmt.command.isNone && u.mgmt.due.isSome) = true ∧
    after? (exec (.recoveryFinalWaitEnd 0) (toldIn .recovering (.finalWait 5) id)) (fun u =>
      (u.port 0).state == .off && (u.port 0).stats.recoveries == 1 && u.mgmt.command.isNone &&
        u.mgmt.due.isSome) = true := by decide

/-- A status word write of the change to ERROR that a failed write caused, in flight. -/
def furtherWrite (k : AccessKind) : Access := { statusAccess k false with further := true }

theorem witness_furtherWrites :
    (∀ s, InFlight (· == .rqStatus 0) 0 (flying s (furtherWrite (.rqStatus 0)))
        (furtherWrite (.rqStatus 0)) [] ∧
      InFlight (· == .rxStatus) 0 (flying s (furtherWrite .rxStatus)) (furtherWrite .rxStatus) [] ∧
      InFlight (fun x => match x with | .cqStatus i _ => i == 0 | _ => false) 0
        (flying s (furtherWrite (.cqStatus 0 .change))) (furtherWrite (.cqStatus 0 .change)) []) ∧
    (∀ k, (furtherWrite k).further = true ∧ (furtherWrite k).forCommand = false ∧
      (furtherWrite k).kind = k ∧ (statusAccess k false).further = false) ∧
    ((rings .running).rq 0).state = .running ∧ ((rings .running).cq 0).state = .running ∧
    (rings .running).rx.state = .running ∧ (rings .running).comp.writer.writes 0 = false :=
  ⟨fun _ => ⟨flies rfl, flies rfl, flies rfl⟩, fun _ => ⟨rfl, rfl, rfl, rfl⟩, by decide, by decide, by decide,
    by decide⟩

/-- In RUNNING a failed status word write takes the queue to ERROR, unless it is that further write
(R115, R160). -/
theorem test_statusWordWriteEnd_further :
    after? (exec (.cqStatusWordWriteEnd 0 0 false)
      (flying (rings .running) (statusAccess (.cqStatus 0 .change) false))) (fun u =>
      (u.cq 0).state == .error && (u.cq 0).reason == .hostFault &&
        u.accesses.any (·.further)) = true ∧
    after? (exec (.cqStatusWordWriteEnd 0 0 false)
      (flying (rings .running) (furtherWrite (.cqStatus 0 .change)))) (fun u =>
      (u.cq 0).state == .running && u.accesses.isEmpty) = true ∧
    after? (exec (.receiveStatusWordWriteEnd 0 false)
      (flying (rings .running) (furtherWrite .rxStatus))) (fun u =>
      u.rx.state == .running && u.mgmt.latches.isEmpty) = true := by decide +kernel

/-- A repeated START of its own makes the verdict BUSY (R88). -/
theorem test_repeatedStart_busy :
    after? (exec (.repeatedStart 0 true) restarting) (fun u =>
      (restarting.port 0).busFree && !(u.port 0).busFree) = true := by decide

/-- The entry to HALTED in the middle of a message: it drains what arrived, marked ended so, the port
leaves TARGET, and the prescaler stops (R165, R102, R143). -/
theorem test_halt_message :
    after? (exec (.mqEntryReadEnd false (Vector.replicate 64 0)) (flying ((addressed fun T =>
        { T with transfer := .mailboxWrite, staging := .filling (message 1) }).modPort 0 fun P =>
          { P with state := .target }) mqRead)) (fun u =>
      u.link.haltFault == .mqFetch && (u.port 0).state == .observing &&
        (u.port 0).tgt.transfer == .none && u.trig.prescaler.isNone &&
        (match (u.port 0).tgt.staging with | .draining m => m.abandoned | _ => false) &&
        u.accesses.map (·.kind) == [.controllerStatus, .targetDrain 0]) = true := by decide

/-- A mailbox decision waits on port 0 of the running rings, with a buffer at hand and staging as given. -/
def deciding (x : AtHand) (f : Option (PortId × CqId)) (st : TStaging) : State :=
  (wanting x f).modPort 0 fun P => { P with
    state := .target, sclDriven := true,
    tgt := { P.tgt with transfer := .deciding (.own 2) 0x11 5, staging := st } }
/-- The same with 32 records in the holding list. -/
def decidingFull (x : AtHand) (st : TStaging) : State :=
  { deciding x none st with comp := (holding 31).comp }
def drainWrite : Access := statusAccess (.targetDrain 0) false

/-- Each case of `DecidesAgain` and `MessageComing`: acknowledged, waiting in three ways, and refused for
staging in use, for staging in use without a buffer, and without a buffer on its way. -/
theorem witness_DecidesAgain :
    (∀ x f st, let s := deciding x f st;
      Awake s ∧ Running s ∧ Live s ∧ s.rx.state = .running ∧ s.link.ctrl ≠ .stopping ∧
        (s.port 0).tgt.transfer = .deciding (.own 2) 0x11 5 ∧ (s.port 0).tgt.atHand = x ∧
        (s.port 0).tgt.staging = st ∧ (s.port 0).tgt.disableTold = false ∧
        (s.port 0).tgt.records = [] ∧ (s.cq buffer.cq).state = .running ∧
        ∀ who addr since, (s.port 1).tgt.transfer ≠ .deciding who addr since) ∧
    MessageComing (deciding .fetching (some (0, 0)) .free) 0 ∧
    MessageComing (deciding .wanted none .free) 0 ∧
    MessageComing (deciding (.present buffer) none (.draining (message 1))) 0 ∧
    ¬ MessageComing (deciding (.present buffer) none .posting) 0 ∧
    ¬ MessageComing (deciding .wanted none .posting) 0 ∧
    ¬ MessageComing (deciding .nothing none .free) 0 :=
  ⟨fun _ _ _ => ⟨rfl, ⟨rfl, rfl⟩, ⟨rfl, .inl rfl⟩, rfl, nofun, rfl, rfl, rfl, rfl, rfl, rfl, nofun⟩,
    ⟨.inr (.inl rfl), .inl rfl⟩, ⟨.inr (.inr ⟨rfl, rfl, by decide⟩), .inl rfl⟩,
    ⟨.inl ⟨_, rfl⟩, .inr ⟨_, rfl⟩⟩, nofun, nofun, nofun⟩

/-- The same cases as an address byte meets them. -/
theorem witness_AddressesAreJudged_coming :
    MessageComing (addressed fun T => { T with atHand := .fetching }) 0 ∧
    MessageComing (addressed fun T =>
      { T with atHand := .present buffer, staging := .draining (message 1) }) 0 ∧
    ¬ MessageComing (addressed fun T => { T with atHand := .present buffer, staging := .posting }) 0 ∧
    ¬ MessageComing (addressed fun T => { T with atHand := .nothing }) 0 :=
  ⟨⟨.inr (.inl rfl), .inl rfl⟩, ⟨.inl ⟨_, rfl⟩, .inr ⟨_, rfl⟩⟩, nofun, nofun⟩

theorem witness_decisions_taken_again :
    (let s := deciding .wanted none .free;
      ((0 : Half) - (if s.rx.fetch.isSome then s.rx.taken + 1 else s.rx.taken)).toNat ≤
        s.rx.size.toNat ∧
      s.rx.size.toNat <
        ((5 : Half) - (if s.rx.fetch.isSome then s.rx.taken + 1 else s.rx.taken)).toNat) ∧
    InFlight (· == .rxEntry) 0 (flying (deciding .fetching (some (0, 0)) .free) ringRead) ringRead [] ∧
    (deciding .fetching (some (0, 0)) .free).rx.fetch = some (0, 0) ∧
    (∀ x, InFlight (· == .targetDrain 0) 0 (flying (deciding x none (.draining (message 1))) drainWrite)
      drainWrite []) ∧
    (∀ ok, EndsAs drainWrite ok 0) ∧
    (deciding .wanted none (.draining (message 1))).comp.holding.length < 32 ∧
    32 ≤ (decidingFull .wanted (.draining (message 1))).comp.holding.length := by
  refine ⟨by decide, flies rfl, rfl, fun _ => flies rfl, fun ok => ?_, by decide, by decide⟩
  cases ok <;> unfold EndsAs <;> decide

/-- A decision that waits is taken again when the ring withdraws what it offered or goes to ERROR, and when
its buffer arrives or does not (R155). -/
theorem test_decideAgain_ring :
    after? (exec (.receiveRingPostedNotify 0) (deciding .wanted none .free)) (fun u =>
      (u.port 0).state == .observing && !(u.port 0).sclDriven && (u.port 0).lastAck == some false &&
        (u.port 0).stats.refusedNoBuffer == 1 &&
        u.mgmt.latches.any (·.latch == .ringEmpty 0)) = true ∧
    after? (exec (.receiveRingPostedNotify 2) (deciding .wanted none .free)) (fun u =>
      (u.port 0).sclDriven && (u.port 0).tgt.transfer.isDeciding) = true ∧
    after? (exec (.receiveRingPostedNotify 5) (deciding .wanted none .free)) (fun u =>
      u.rx.state == .error && (u.port 0).stats.refusedNoBuffer == 1) = true ∧
    after? (exec (.receiveFetchEnd true (ringEntry 16 0))
      (flying (deciding .fetching (some (0, 0)) .free) ringRead)) (fun u =>
      (u.port 0).lastAck == some true && !(u.port 0).sclDriven &&
        (u.port 0).tgt.transfer == .mailboxWrite && (u.port 0).tgt.atHand == .wanted) = true ∧
    after? (exec (.receiveFetchEnd false (ringEntry 16 0))
      (flying (deciding .fetching (some (0, 0)) .free) ringRead)) (fun u =>
      u.rx.state == .error && (u.port 0).tgt.transfer == .refused) = true := by decide

/-- A decision that waits for the drain starts its message when the record is accepted, and is refused for
staging in use when it is not (R155, R158). -/
theorem test_decideAgain_drain :
    after? (exec (.targetDrainEnd 0 true)
      (flying (deciding (.present buffer) none (.draining (message 1))) drainWrite)) (fun u =>
      (u.port 0).tgt.transfer == .mailboxWrite && (u.port 0).stats.messages == 1) = true ∧
    after? (exec (.targetDrainEnd 0 true)
      (flying (decidingFull (.present buffer) (.draining (message 1))) drainWrite)) (fun u =>
      (u.port 0).tgt.transfer == .refused && (u.port 0).stats.refusedBusy == 1 &&
        (u.port 0).tgt.staging == .posting) = true := by decide +kernel

/-- The worked transaction in service of port 0 without an attempt, in a port and recovery state. -/
def inServiceAs (x : TxnState) (ps : PortState) (r : Recovery) : State :=
  (serving .running worked x ps Engine.reset).modPort 0 fun P => { P with
    recovery := r, cfg := { P.cfg with recovery := false } }

theorem witness_FaultEndsService :
    (∀ x ps r, let s := inServiceAs x ps r;
      Running s ∧ (s.port 0).inService = some 0 ∧ s.txn 0 = some (txn worked x) ∧
        CanPost s 0 (txn worked x) ∧ (s.port 0).cfg.busTimeout ≠ 0 ∧ (s.port 0).state = ps ∧
        (s.port 0).recovery = r ∧ (s.port 0).cfg.recovery = false ∧
        (s.port 0).eng.phase = .none ∧ (s.port 0).eng.quiet = false ∧
        (s.port 0).tgt.transfer = .none ∧ (s.port 0).tgt.disableTold = false ∧
        (s.port 0).pendingResult = none) ∧
    (let s := inServiceAs .ready .idle .none;
      (s.port 0).cfg.busTimeout.toNat * 1000 ≤ (s.timebase - (s.port 0).clockLowFrom).toNat) ∧
    10000 ≤ ((1000000 : Word) - 990000).toNat :=
  ⟨fun _ _ _ => ⟨⟨rfl, rfl⟩, rfl, rfl,
      ⟨⟨0, rfl⟩, rfl, Nat.zero_lt_succ _, by intro q; fin_cases q <;> rfl, rfl⟩, nofun, rfl, rfl, rfl,
      rfl, rfl, rfl, rfl, rfl⟩, by decide, by decide⟩

/-- FAULTED ends a transaction in READY with BUS_FAULT, makes that the pending result of one in STAGING and
leaves one in DRAINING (R60). -/
theorem test_fault_service :
    after? (exec (.clockLowTimeout 0) (inServiceAs .ready .idle .none)) (fun u =>
      (u.port 0).state == .faulted && (u.port 0).list.isEmpty && u.comp.holding.length == 1 &&
        (match u.txn 0 with | some t => t.result == .busFault && t.detail == 1 | none => false)) = true ∧
    after? (exec (.clockLowTimeout 0) (inServiceAs .staging .idle .none)) (fun u =>
      (u.port 0).pendingResult == some (.busFault, 1) && (u.port 0).inService == some 0) = true ∧
    after? (exec (.recoveryLimitExpiry 0 false) (inServiceAs .draining .recovering (.waitScl 5)))
      (fun u => (u.port 0).state == .faulted && (u.port 0).pendingResult.isNone &&
        (u.port 0).inService == some 0 && u.comp.holding.isEmpty) = true := by decide

/-- OPENING, before a START and for a repeated START. -/
theorem witness_TimeoutsExpire_opening :
    (let s := attempt .opening 0 0;
      Running s ∧ (s.port 0).eng.phase = .opening ∧ (s.port 0).eng.restart = false ∧
        (s.port 0).inService = some 0 ∧ s.txn 0 = some (txn worked .active)) ∧
    (restarting.port 0).eng.phase = .opening ∧ (restarting.port 0).eng.restart = true := by decide

/-- A timeout while a repeated START is awaited names the segment it was to open (R68, R96, log entry
22). -/
theorem test_clockLowTimeout_opening :
    after? (exec (.clockLowTimeout 0) restarting) (fun u =>
      (u.port 0).state == .recovering &&
        (match u.txn 0 with
          | some t => t.result == .busTimeout && t.segIndex == (restarting.port 0).eng.segment + 1
          | none => false)) = true := by decide

/-- ENABLE PORT or RESTART PORT waits for port 0 in a recovery. -/
def awaited (r : Recovery) (w : PortCommand) (op : Byte) : State :=
  commanded (portIn .recovering r) (entry [(0, op)]) (.port 0 w)

theorem witness_RecoveryRuns_awaited :
    ∀ r w op, let s := awaited r w op;
      Running s ∧ (s.port 0).inService = none ∧ (s.port 0).tgt.disableTold = false ∧
        (s.port 0).state = .recovering ∧ (s.port 0).recovery = r ∧
        s.mgmt.command = some { entry := entry [(0, op)], phase := .port 0 w } :=
  fun _ _ _ => ⟨⟨rfl, rfl⟩, rfl, rfl, rfl, rfl, rfl⟩

/-- ENABLE PORT completes at the end of the recovery, and RESTART PORT when another device's START ends its
wait (R93, R101). -/
theorem test_recovery_awaited :
    after? (exec (.recoveryFinalWaitEnd 0) (awaited (.finalWait 5) .enable 7)) (fun u =>
      (u.port 0).state == .idle && u.mgmt.command.isNone && u.mgmt.due.isSome) = true ∧
    after? (exec (.busStartSeen 0) (awaited (.restartWait 5) .restart 9)) (fun u =>
      (u.port 0).state == .observing && !(u.port 0).inStep && (u.port 0).stats.recoveries == 0 &&
        u.mgmt.command.isNone && u.mgmt.due.isSome) = true := by decide

theorem witness_CheckValue :
    ([] ++ 0x90 :: [0x05] : List Byte).foldl crcByte 0 =
      ([] ++ 0x90 :: [0x05] : List Byte).foldl crcByte 0 := rfl

end Sys2Proof.Tests
end

section
/-! SUPPORT. The place of an insertion into a pending list (R45): one rule for each function that decides
it, the state after the insertion, and from them the statement InsertionKeepsTheOrder. -/

namespace Sys2Proof.Machine

variable (s : State)

/-! ### The member that holds an insertion back -/

/-- Two origins are shared when they are the same or both the trigger unit's (R45). -/
theorem sameOrigin_iff (a b : Origin) :
    sameOrigin a b = true ↔ a = b ∨ (a.isRequest = false ∧ b.isRequest = false) := by
  cases a <;> cases b <;> simp [sameOrigin, Origin.isRequest]

theorem holdsBack_iff (t : Txn) (j : SlotId) :
    s.holdsBack t j = true ↔ ∃ u, s.txn j = some u ∧
      (u.req.urgent = true ∨ u.origin = t.origin ∨
        (u.origin.isRequest = false ∧ t.origin.isRequest = false)) := by
  unfold State.holdsBack
  cases s.txn j with
  | none => simp
  | some u => simp [sameOrigin_iff]

/-- What a member that does not hold back is: not urgent, and of another origin. -/
theorem not_urgent_of_holdsBack_eq_false {s : State} {t u : Txn} {j : SlotId}
    (h : s.holdsBack t j = false) (hu : s.txn j = some u) :
    u.req.urgent = false ∧ u.origin ≠ t.origin ∧
      (u.origin.isRequest = true ∨ t.origin.isRequest = true) := by
  have free : ¬ (u.req.urgent = true ∨ u.origin = t.origin ∨
      (u.origin.isRequest = false ∧ t.origin.isRequest = false)) := fun held => by
    simp [(holdsBack_iff s t j).mpr ⟨u, hu, held⟩] at h
  simpa [not_or, or_iff_not_imp_left] using free

/-! ### The place behind the last of a list -/

theorem behindLast_eq_none {α : Type} {f : α → Bool} {l : List α} (h : behindLast f l = none) :
    ∀ a ∈ l, f a = false := by
  induction l with
  | nil => simp
  | cons a l ih =>
    unfold behindLast at h
    split at h
    · cases h
    next rest =>
      have head : f a = false := by simpa using h
      simpa [head] using ih rest

/-- The place lies directly behind a member that `f` names, and `f` names none after it. -/
theorem behindLast_eq_some {α : Type} {f : α → Bool} {l : List α} {i : Nat}
    (h : behindLast f l = some i) :
    (∃ a, (l.take i).getLast? = some a ∧ f a = true) ∧ ∀ b ∈ l.drop i, f b = false := by
  induction l generalizing i with
  | nil => cases h
  | cons a l ih =>
    unfold behindLast at h
    split at h
    next n later =>
      cases h
      obtain ⟨⟨b, last, named⟩, after⟩ := ih later
      exact ⟨⟨b, by simp [List.getLast?_cons, last], named⟩, after⟩
    next none_later =>
      split at h
      next named =>
        cases h
        exact ⟨⟨a, rfl, named⟩, behindLast_eq_none none_later⟩
      · cases h

/-! ### The place of an insertion -/

theorem insertIndex_of_not_urgent {p : PortId} {t : Txn} (h : t.req.urgent = false) :
    s.insertIndex p t = (s.port p).list.length := by simp [State.insertIndex, h]

/-- An urgent insertion goes behind every member that holds it back. -/
theorem holdsBack_behind_insertIndex {p : PortId} {t : Txn} (h : t.req.urgent = true) :
    ∀ j ∈ (s.port p).list.drop (s.insertIndex p t), s.holdsBack t j = false := by
  unfold State.insertIndex
  rw [if_pos h]
  split
  next found => exact (behindLast_eq_some found).2
  next none_found => exact fun j hj => behindLast_eq_none none_found j (List.mem_of_mem_drop hj)

/-- What stands before an urgent insertion: nothing, the in-service transaction alone, or a part of the
list that ends with a member that holds it back. -/
theorem before_insertIndex {p : PortId} {t : Txn} (h : t.req.urgent = true)
    (first : (s.port p).servesFirst) :
    let pre := (s.port p).list.take (s.insertIndex p t)
    pre = [] ∨ ((s.port p).inService = pre.head? ∧ pre.length = 1) ∨
      ∃ j, pre.getLast? = some j ∧ s.holdsBack t j = true := by
  unfold State.insertIndex
  rw [if_pos h]
  split
  next found => exact .inr (.inr (behindLast_eq_some found).1)
  next =>
    cases served : (s.port p).inService with
    | none => exact .inl rfl
    | some j =>
      obtain ⟨l, hl⟩ := List.head?_eq_some_iff.mp (first j served)
      exact .inr (.inl (by simp [hl]))

/-! ### The state after an insertion -/

theorem list_insertTxn_same (k : SlotId) (t : Txn) :
    ((insertTxn k t s).port t.port).list =
      insertAt (s.port t.port).list (s.insertIndex t.port t) k := by simp [insertTxn]

theorem port_insertTxn_of_ne (k : SlotId) {t : Txn} {q : PortId} (h : q ≠ t.port) :
    (insertTxn k t s).port q = s.port q := by simp [insertTxn, h.symm]

theorem txn_insertTxn_same (k : SlotId) (t : Txn) :
    (insertTxn k t s).txn k = some { t with state := .waiting } := by simp [insertTxn]

/-- The in-service transaction stays the first of the list (R45, R47). -/
theorem head_insertTxn {k j : SlotId} {t : Txn} (first : (s.port t.port).servesFirst)
    (served : (s.port t.port).inService = some j) :
    ((insertTxn k t s).port t.port).list.head? = some j := by
  rw [list_insertTxn_same]
  exact head_insertAt (insertIndex_pos served) (first j served)

end Sys2Proof.Machine

namespace Sys2Proof.Proofs

open Sys2Proof.Machine

/-- Settles O41: the place of the insertion cuts the list in two, and the rules of the place say what
stands before it and behind it. -/
theorem insertionKeepsTheOrder : Obligations.InsertionKeepsTheOrder := by
  intro s k t first
  refine ⟨(s.port t.port).list.take (s.insertIndex t.port t),
    (s.port t.port).list.drop (s.insertIndex t.port t), (List.take_append_drop _ _).symm,
    list_insertTxn_same s k t, fun _ => port_insertTxn_of_ne s k, txn_insertTxn_same s k t,
    fun plain => ?_, fun urgent => ⟨fun j u hj hu => ?_, ?_⟩, fun _ => head_insertTxn s first⟩
  · simp [insertIndex_of_not_urgent s plain]
  · exact not_urgent_of_holdsBack_eq_false (holdsBack_behind_insertIndex s urgent j hj) hu
  · obtain empty | alone | ⟨j, last, held⟩ := before_insertIndex s urgent first
    · exact .inl empty
    · exact .inr (.inl alone)
    · obtain ⟨u, hu, why⟩ := (holdsBack_iff s t j).mp held
      exact .inr (.inr ⟨j, u, last, hu, why⟩)

end Sys2Proof.Proofs
end

section
/-! SUPPORT. How a management command in hand is executed and answered, when a number field names an
object, and from them what CLEAR TRIGGER does (R142): the statement ClearTrigger. -/

namespace Sys2Proof.Machine

variable {s : State} {e : List Byte}

/-! ### The command in hand (R169, R170) -/

/-- A row whose opcode the command in hand has acts on that command's entry. -/
theorem runCommand_of_executing {op : Byte} {f : List Byte → State → State}
    (h : Executing op e s) : runCommand op f s = f e s := by
  obtain ⟨⟨out_of_reset, running⟩, held, is_op⟩ := h
  simp [runCommand, whenRunning, awake, out_of_reset, running, held, is_op]

/-- Whatever the phase of the command in hand, its completion is its answer (R170, R172). -/
theorem completeCommand_of_command {status : Status} {a b : Word} {phase : CmdPhase}
    (h : s.mgmt.command = some { entry := e, phase := phase }) :
    completeCommand status a b s = answered e status a b s := by
  simp [completeCommand, h, State.modMgmt, answered]

theorem reply_of_command {status : Status} {phase : CmdPhase}
    (h : s.mgmt.command = some { entry := e, phase := phase }) :
    reply status s = answered e status 0 0 s := completeCommand_of_command h

/-! ### Number fields -/

/-- A number past the last object names none. -/
theorem asId_of_le {n : Nat} {b : Byte} (h : n ≤ b.toNat) : asId n b = none :=
  dif_neg h.not_gt

theorem asId_of_toNat_eq {n : Nat} {b : Byte} {i : Fin n} (h : b.toNat = i.val) :
    asId n b = some i := by
  have small : b.toNat < n := h ▸ i.isLt
  rw [asId, dif_pos small]
  exact congrArg some (Fin.ext h)

/-! ### CLEAR TRIGGER (R142) -/

theorem exec_clearTrigger : exec .clearTrigger s = .next (runCommand 0x10 clearTrigger s) := rfl

theorem exec_clearTrigger_of_executing (h : Executing 0x10 e s) :
    exec .clearTrigger s = .next (clearTrigger e s) := by
  rw [exec_clearTrigger, runCommand_of_executing h]

theorem clearTrigger_of_no_entry (h : 32 ≤ (byteAt e 8).toNat) :
    clearTrigger e s = reply .invalidId s := by
  simp [clearTrigger, asId_of_le h]

section

variable {t : TrigId} (named : (byteAt e 8).toNat = t.val)
include named

theorem clearTrigger_of_not_clearable
    (h : ¬ ((s.trigger t).state = .disabled ∧ (s.trigger t).outstanding = false)) :
    clearTrigger e s = reply .wrongState s := by
  rw [clearTrigger, asId_of_toNat_eq named]
  exact if_pos (by simpa [or_iff_not_imp_left] using h)

theorem clearTrigger_of_clearable
    (disabled : (s.trigger t).state = .disabled) (free : (s.trigger t).outstanding = false) :
    clearTrigger e s = reply .success (s.modTrigger t fun _ => Trigger.reset) := by
  simp [clearTrigger, asId_of_toNat_eq named, disabled, free]

end

/-- A cleared entry names no completion queue: where no other entry names `n`, none does (R142). -/
theorem not_named_of_cleared {t : TrigId} {n : CqId}
    (others : ∀ u, u ≠ t → (s.trigger u).state = .empty ∨ (s.trigger u).cq ≠ n) (u : TrigId) :
    ((s.modTrigger t fun _ => Trigger.reset).trigger u).state = .empty ∨
      ((s.modTrigger t fun _ => Trigger.reset).trigger u).cq ≠ n := by
  by_cases h : t = u
  · left; rw [trigger_modTrigger, if_pos h]; rfl
  · rw [trigger_modTrigger, if_neg h]; exact others u (Ne.symm h)

end Sys2Proof.Machine

namespace Sys2Proof.Proofs

open Sys2Proof.Machine

/-- Settles O35: the command in hand acts by the entry it names, and each of the three outcomes is one
equation of the model's clearing followed by the command's answer. -/
theorem clearTrigger : Obligations.ClearTrigger := by
  intro s e executing
  have runs := exec_clearTrigger_of_executing executing
  obtain ⟨-, held, -⟩ := executing
  refine ⟨fun beyond => ?_, fun t named => ⟨fun refused => ?_, fun disabled free =>
    ⟨?_, rfl, rfl, fun n => ⟨rfl, not_named_of_cleared⟩⟩⟩⟩
  · rw [Answers, runs, clearTrigger_of_no_entry beyond, reply_of_command held]
  · rw [Answers, runs, clearTrigger_of_not_clearable named refused, reply_of_command held]
  · rw [runs, clearTrigger_of_clearable named disabled free,
      reply_of_command (by rwa [modTrigger_mgmt])]

end Sys2Proof.Proofs
end

section
/-! SUPPORT. What any command of the table can do to the part, said once (`exec_effect`): it is a reset, the
end of a stop or a write of ISR or IMR, or it moves the controller as chapter 10 gives and otherwise stays
inside the part. The statements about the whole machine follow from it. -/

namespace Sys2Proof.Machine

variable {r s t : State} {c : Instr}

/-! ### Halts on the way: operations that may take the controller to RUNNING or HALTED -/

/-- What an operation that may end the start or halt the controller does to the host link unit. -/
structure LinkHalts (l l' : Link) : Prop where
  en : l'.en = l.en
  sbl : l'.sbl = l.sbl
  busMaster : l'.busMaster = l.busMaster
  linkReset : l'.linkReset = l.linkReset
  ctrl : l'.ctrl = l.ctrl ∨ (l.ctrl = .starting ∧ l'.ctrl = .running) ∨
    ((l.ctrl = .starting ∨ l.ctrl = .running) ∧ l'.ctrl = .halted)

theorem LinkHalts.same {l : Link} : LinkHalts l l := ⟨rfl, rfl, rfl, rfl, .inl rfl⟩

theorem LinkHalts.trans {l m n : Link} (h : LinkHalts l m) (g : LinkHalts m n) : LinkHalts l n where
  en := g.en.trans h.en
  sbl := g.sbl.trans h.sbl
  busMaster := g.busMaster.trans h.busMaster
  linkReset := g.linkReset.trans h.linkReset
  ctrl := by
    rcases g.ctrl with e | ⟨e, e'⟩ | ⟨e, e'⟩
    · rw [e]; exact h.ctrl
    · rcases h.ctrl with d | ⟨_, d⟩ | ⟨_, d⟩
      · exact .inr (.inl ⟨d ▸ e, e'⟩)
      · rw [d] at e; cases e
      · rw [d] at e; cases e
    · rcases h.ctrl with d | ⟨d, _⟩ | ⟨_, d⟩
      · exact .inr (.inr ⟨d ▸ e, e'⟩)
      · exact .inr (.inr ⟨.inl d, e'⟩)
      · rw [d] at e; rcases e with e | e <;> cases e

/-- An operation that stays inside the part, but for a halt or the entry to RUNNING. -/
structure Within (s t : State) : Prop where
  link : LinkHalts s.link t.link
  inside : Inside { s with link := t.link } t

/-- What stays inside the part does so whatever the host link's context is. -/
theorem Inside.withLink {l : Link} (h : Inside s t) (hl : l.busMaster = s.link.busMaster) :
    Inside { s with link := l } { t with link := l } where
  pending := h.pending
  link := rfl
  timebase := h.timebase
  imr := h.imr
  isr := h.isr
  isr5 := h.isr5
  isr6 := h.isr6
  sent := by simpa only [hl] using h.sent
  holding := h.holding
  lists := h.lists
  served := h.served
  kinds := h.kinds

theorem Inside.within (h : Inside s t) : Within s t :=
  ⟨h.link ▸ .same, by rw [h.link]; exact h⟩

theorem Within.same : Within s s := Inside.same.within

theorem Within.of_link {l : Link} (hl : LinkHalts s.link l) (h : Inside { s with link := l } t) :
    Within s t := by
  have e : t.link = l := h.link
  subst e
  exact ⟨hl, h⟩

theorem Within.trans (h : Within r s) (g : Within s t) : Within r t where
  link := h.link.trans g.link
  inside := (h.inside.withLink (l := t.link) g.link.busMaster).trans g.inside

/-- What follows inside the part keeps `Within`. -/
theorem Within.then_inside (h : Within r s) (g : Inside s t) : Within r t := h.trans g.within

theorem within_enterHalted (f : HaltFault) (h : Within r s) : Within r (enterHalted f s) := by
  refine h.trans ?_
  rcases enterHalted_spec f s with ⟨c, i⟩ | ⟨-, -, e⟩
  · exact .of_link (l := { s.link with ctrl := .halted, haltFault := f })
      ⟨rfl, rfl, rfl, rfl, .inr (.inr ⟨c, rfl⟩)⟩
      ((inside_raiseIsr (i := 7) Inside.same (by decide)).trans i)
  · rw [e]; exact .same

theorem within_enterRunning (b : List Byte) (h : Within r s) (hs : s.link.ctrl = .starting) :
    Within r (enterRunning b s) :=
  h.trans (.of_link (l := { s.link with ctrl := .running }) ⟨rfl, rfl, rfl, rfl, .inr (.inl ⟨hs, rfl⟩)⟩
    (inside_writeControllerStatus (inside_writeMqStatus (inside_modMgmt Inside.same))))

theorem within_headerEnd {ok : Bool} {b : List Byte} (h : Within r s) :
    Within r (headerEnd ok b s) := by
  unfold headerEnd
  split
  next starting =>
    split
    · exact within_enterHalted _ h
    · split
      · exact within_enterRunning b h starting
      · exact within_enterHalted _ h
  · exact h

theorem within_setStray (h : Within r s) : Within r (setStray s) :=
  h.trans (.of_link (l := { s.link with stray := true }) ⟨rfl, rfl, rfl, rfl, .inl rfl⟩ Inside.same)

/-! ### Management rings and host accesses -/

theorem within_mgmtWriteFails (h : Within r s) : Within r (mgmtWriteFails s) := by
  unfold mgmtWriteFails
  split
  · exact within_enterHalted _ h
  · exact h.then_inside (inside_modMgmt .same)

theorem within_mqEntryEnd {ok : Bool} {e : List Byte} (h : Within r s) :
    Within r (mqEntryEnd ok e s) := by
  have g : Within r (s.modMgmt fun m => { m with reading := false }) :=
    h.then_inside (inside_modMgmt .same)
  unfold mqEntryEnd
  dsimp only
  split
  · split
    · exact g.then_inside (inside_writeMqStatus (inside_modMgmt .same))
    · exact within_enterHalted _ g
  · exact g

theorem within_mqStatusEnd {b ok : Bool} (h : Within r s) : Within r (mqStatusEnd b ok s) := by
  unfold mqStatusEnd
  split
  · exact within_mgmtWriteFails h
  · split
    · split
      · exact h.then_inside (inside_writeMcqStatus .same)
      · exact h
    · split
      · exact h.then_inside (inside_setCommandPhase .same)
      · exact h

theorem within_mcqRecordEnd {ok : Bool} (h : Within r s) : Within r (mcqRecordEnd ok s) := by
  unfold mcqRecordEnd
  split
  next completion _ =>
    split
    · refine h.then_inside ?_
      dsimp only
      generalize hu : s.modMgmt _ = u
      have g : Inside s u := hu ▸ inside_modMgmt .same
      split
      · exact inside_writeMcqStatus (inside_modMgmt g)
      · exact g
    · exact within_mgmtWriteFails (h.then_inside (inside_modMgmt .same))
  · exact h

theorem within_mcqStatusEnd {b ok : Bool} (h : Within r s) : Within r (mcqStatusEnd b ok s) := by
  unfold mcqStatusEnd
  dsimp only
  generalize hu : (if b then s else s.modMgmt fun m => { m with sequence := .idle }) = u
  have g : Within r u := by
    rw [← hu]
    split
    · exact h
    · exact h.then_inside (inside_modMgmt .same)
  split
  · exact within_mgmtWriteFails g
  · split
    · exact g
    · exact g.then_inside (inside_raiseIsr .same (by decide))

theorem within_awake {f : State → State} (hf : Within s (f s)) : Within s (awake s f) := by
  unfold awake
  split
  · exact .same
  · exact hf

theorem within_endAccess {f : Access → Bool} {k got : Nat} {ok : Bool}
    {g : Access → Bool → State → State} (h : Within r s)
    (hg : ∀ a b s, Within r s → Within r (g a b s)) : Within r (endAccess f k ok got g s) := by
  unfold endAccess
  split
  · exact h
  · dsimp only
    split
    · exact h
    · split
      · exact hg _ _ _ (h.then_inside (inside_accesses .same))
      · exact h.then_inside (inside_accesses .same)

theorem within_failAccess {a : Access} (h : Within r s) : Within r (failAccess a s) := by
  unfold failAccess
  split
  case h_1 => exact within_headerEnd h
  case h_2 => exact h
  case h_3 => exact within_mqEntryEnd h
  case h_4 => exact within_mqStatusEnd h
  case h_5 => exact within_mcqRecordEnd h
  case h_6 => exact within_mcqStatusEnd h
  case h_7 => exact h.then_inside (inside_cmdReadEnd .same)
  case h_8 => exact h.then_inside (inside_cmdWriteEnd .same)
  case h_9 => exact h.then_inside (inside_rqEntryEnd .same)
  case h_10 => exact h.then_inside (inside_rqStatusEnd .same)
  case h_11 => exact h.then_inside (inside_stagingEnd .same)
  case h_12 => exact h.then_inside (inside_drainingEnd .same)
  case h_13 => exact h.then_inside (inside_recordEnd .same)
  case h_14 => exact h.then_inside (inside_cqStatusEnd .same)
  case h_15 => exact h.then_inside (inside_fetchEnd .same)
  case h_16 => exact h.then_inside (inside_rxStatusEnd .same)
  case h_17 => exact h.then_inside (inside_drainEnded .same)

theorem within_accessFails {a : Access} (h : Within r s) : Within r (accessFails s a) := by
  unfold accessFails
  split
  · exact within_failAccess h
  · exact h

theorem within_foldl_accessFails (l : List Access) (h : Within r s) :
    Within r (l.foldl accessFails s) := by
  induction l generalizing s with
  | nil => exact h
  | cons a l ih => exact ih (within_accessFails h)

theorem within_timeoutAccess {k : Nat} (h : Within r s) : Within r (timeoutAccess k s) := by
  unfold timeoutAccess
  split
  · split
    · exact within_accessFails (h.then_inside (inside_accesses .same))
    · exact h
  · exact h

theorem inside_commandAccessEnd {d : List Byte} {a : Access} {ok : Bool} (h : Inside r s) :
    Inside r (commandAccessEnd d a ok s) := by
  unfold commandAccessEnd
  split
  case h_1 => exact inside_cmdReadEnd h
  case h_2 => exact inside_cmdWriteEnd h
  case h_3 => exact inside_rqStatusEnd h
  case h_4 => exact inside_cqStatusEnd h
  case h_5 => exact inside_rxStatusEnd h
  case h_6 => exact h

/-! ### Notifies -/

theorem inside_takeRqNotify {q : RqId} {n : Half} (h : Inside r s) (hs : (s.rq q).state ≠ .absent) :
    Inside r (takeRqNotify q n s) := by
  unfold takeRqNotify
  split
  case h_1 e => exact absurd e hs
  case h_2 =>
    dsimp only
    split
    · exact inside_rqEnterError (inside_modRq h)
    · exact inside_modRq h
  case h_3 => exact inside_modRq h

theorem within_takeRqNotify {q : RqId} {n : Half} (h : Within r s) :
    Within r (takeRqNotify q n s) := by
  by_cases hs : (s.rq q).state = .absent
  · simp only [takeRqNotify, hs]; exact within_setStray h
  · exact h.then_inside (inside_takeRqNotify .same hs)

theorem within_takeCqNotify {q : CqId} {n : Half} (h : Within r s) :
    Within r (takeCqNotify q n s) := by
  unfold takeCqNotify
  split
  case h_1 => exact within_setStray h
  case h_2 =>
    dsimp only
    split
    · exact h.then_inside (inside_cqEnterError (inside_modCq .same))
    · exact h.then_inside (inside_modCq .same)
  case h_3 => exact h.then_inside (inside_modCq .same)

theorem within_takeRxNotify {n : Half} (h : Within r s) : Within r (takeRxNotify n s) := by
  have g : Inside s { s with rx := { s.rx with posted := n } } := inside_rx .same
  unfold takeRxNotify
  dsimp only
  split
  case h_1 => exact within_setStray h
  case h_2 =>
    split
    · exact h.then_inside (inside_rxEnterError g)
    · exact h.then_inside (inside_decideAll g)
  case h_3 => exact h.then_inside g

theorem within_takeMqNotify {n : Half} (h : Within r s) : Within r (takeMqNotify n s) := by
  have g : Within r (s.modMgmt fun m => { m with mqPosted := n }) :=
    h.then_inside (inside_modMgmt .same)
  unfold takeMqNotify
  dsimp only
  split
  · exact within_enterHalted _ g
  · exact g

theorem within_takeMcqNotify {n : Half} (h : Within r s) : Within r (takeMcqNotify n s) := by
  have g : Within r (s.modMgmt fun m => { m with mcqConsumed := n }) :=
    h.then_inside (inside_modMgmt .same)
  unfold takeMcqNotify
  dsimp only
  split
  · split
    · exact within_enterHalted _ g
    · exact g.then_inside (inside_modMgmt .same)
  · exact g

theorem within_notify {side : Bool} {i : Nat} {n : Half} (h : Within r s) :
    Within r (notify side i n s) := by
  unfold notify
  split
  · split
    · unfold consumedNotify
      split
      · exact within_takeMcqNotify h
      · split
        · exact within_takeCqNotify h
        · exact within_setStray h
    · unfold postedNotify
      split
      · exact within_takeMqNotify h
      · split
        · exact within_takeRqNotify h
        · split
          · exact within_takeRxNotify h
          · exact within_setStray h
  · exact within_setStray h

/-! ### What a command can do -/

/-- The commands that reset the part: the three resets and a write of GCR with SRST (R188, R197). -/
def Resets : Instr → Prop
  | .powerOnReset | .linkReset | .softReset _ => True
  | .registerWrite o n v => o = 0x004 ∧ n = 4 ∧ v.getLsbD 1 = true
  | _ => False

/-- The controller states in which EN reads 1 (R188). -/
def Ctrl.enabled (x : Ctrl) : Prop := x = .starting ∨ x = .running ∨ x = .halted

/-- What a command that is no reset and no end of a stop does to the host link unit. -/
structure LinkSteps (l l' : Link) : Prop where
  ctrl : l'.ctrl = l.ctrl ∨ (l.ctrl = .disabled ∧ l'.ctrl = .starting) ∨
    (l.ctrl = .starting ∧ l'.ctrl = .running) ∨
    ((l.ctrl = .starting ∨ l.ctrl = .running) ∧ l'.ctrl = .halted) ∨
    (l.ctrl.enabled ∧ l'.ctrl = .stopping)
  en : (l.en = true ↔ l.ctrl.enabled) → (l'.en = true ↔ l'.ctrl.enabled)
  sbl : l.sbl.extractLsb' 0 8 = 0#8 → l'.sbl.extractLsb' 0 8 = 0#8

/-- What a command can do: the steps of the blocks, with what chapter 10 lets the controller do; a reset;
the end of a stop; and a write of ISR or of IMR. -/
inductive Effect (c : Instr) (s : State) : State → Prop
  | steps {t : State} (link : LinkSteps s.link t.link) (inside : Inside { s with link := t.link } t) :
      Effect c s t
  | reset (h : Resets c) (busMaster linkReset : Bool) : Effect c s (resetAll busMaster linkReset s)
  | ended (h : s.link.ctrl = .stopping) : Effect c s (stopped s)
  | isr (v : Word) (h : c = .isrClear v ∨ c = .registerWrite 0x018 4 v) : Effect c s (isrWrite v s)
  | imr (v : Word) (h : c = .imrWrite v ∨ c = .registerWrite 0x01C 4 v) : Effect c s (imrWrite v s)

/-- The controller keeps EN and its state, or halts, whatever else happens to the host link unit. -/
theorem LinkHalts.steps {l m n : Link} (h : LinkHalts m n) (hc : m.ctrl = l.ctrl) (he : m.en = l.en)
    (hs : l.sbl.extractLsb' 0 8 = 0#8 → m.sbl.extractLsb' 0 8 = 0#8) : LinkSteps l n where
  ctrl := by
    have := h.ctrl
    rw [hc] at this
    rcases this with e | e | e
    · exact .inl e
    · exact .inr (.inr (.inl e))
    · exact .inr (.inr (.inr (.inl e)))
  en := fun g => by
    rw [h.en, he, g]
    have := h.ctrl
    rw [hc] at this
    unfold Ctrl.enabled
    rcases this with e | ⟨e, e'⟩ | ⟨e, e'⟩
    · rw [e]
    · simp [e, e']
    · rcases e with e | e <;> simp [e, e']
  sbl := fun g => by rw [h.sbl]; exact hs g

/-- A write of the host link unit's registers and then a step of the blocks. -/
theorem Effect.of_link {l : Link} (hc : l.ctrl = s.link.ctrl) (he : l.en = s.link.en)
    (hs : s.link.sbl.extractLsb' 0 8 = 0#8 → l.sbl.extractLsb' 0 8 = 0#8)
    (h : Within { s with link := l } t) : Effect c s t :=
  .steps (h.link.steps hc he hs) h.inside

theorem Effect.of_within (h : Within s t) : Effect c s t := .of_link rfl rfl id h

theorem Effect.of_inside (h : Inside s t) : Effect c s t := .of_within h.within

theorem Effect.same : Effect c s s := .of_inside .same

/-- While link reset is asserted nothing happens (R197). -/
theorem Effect.of_awake {f : State → State} (h : Effect c s (f s)) : Effect c s (awake s f) := by
  unfold awake
  split
  · exact .same
  · exact h

theorem effect_enableController : Effect c s (enableController s) := by
  unfold enableController
  split
  next disabled =>
    refine .steps ⟨.inr (.inl ⟨disabled, rfl⟩), fun _ => ?_, id⟩ (inside_accesses .same)
    simp [Ctrl.enabled, issue]
  · exact .same

theorem effect_stopController : Effect c s (stopController s) := by
  rcases stopController_spec s with ⟨h, i⟩ | ⟨-, -, -, e⟩
  · have e : (stopController s).link = { s.link with ctrl := .stopping, en := false } := i.link
    refine .steps ⟨.inr (.inr (.inr (.inr ⟨h, by rw [e]⟩))), fun _ => ?_, ?_⟩ (by rw [e]; exact i)
    · simp [e, Ctrl.enabled]
    · rw [e]; exact id
  · rw [e]; exact .same

theorem effect_gsrWrite {v : Word} : Effect c s (gsrWrite v s) := by
  unfold gsrWrite
  split
  · exact .of_link (l := { s.link with stray := false }) rfl rfl id .same
  · exact .same

/-- SBL takes no low bits (R187). -/
theorem sbl_mask (v : Word) : (v &&& 0xFFFFFF00).extractLsb' 0 8 = 0#8 := by
  apply BitVec.eq_of_getLsbD_eq
  intro i hi
  have : (0xFFFFFF00#32).getLsbD i = false := by
    revert i; decide
  simp [this]

theorem effect_registerWrite {o : BitVec 12} {v : Word} :
    Effect (.registerWrite o 4 v) s (writeRegister o.toNat v s) := by
  have at_offset : ∀ n : Nat, n < 2 ^ 12 → o.toNat = n → o = BitVec.ofNat 12 n := fun n hn e =>
    BitVec.eq_of_toNat_eq (by rw [e, BitVec.toNat_ofNat, Nat.mod_eq_of_lt hn])
  unfold writeRegister
  split
  next e =>
    unfold gcrWrite
    split
    next srst =>
      have e : o = 0x004 := at_offset 4 (by decide) e
      exact .reset (c := .registerWrite o 4 v) ⟨e, rfl, srst⟩ _ _
    · split
      · exact effect_enableController
      · exact effect_stopController
  · exact effect_gsrWrite
  · exact .of_link (l := { s.link with sbl := v &&& 0xFFFFFF00 }) rfl rfl (fun _ => sbl_mask v) .same
  · exact .of_link (l := { s.link with sbh := v }) rfl rfl id .same
  · exact .of_within (within_notify .same)
  next e => exact .isr v (.inr (by rw [at_offset 0x18 (by decide) e]; rfl))
  next e => exact .imr v (.inr (by rw [at_offset 0x1C (by decide) e]; rfl))
  · exact .same

theorem effect_setBusMaster {on : Bool} : Effect c s (setBusMaster on s) := by
  unfold setBusMaster
  dsimp only
  split
  · exact .of_link (l := { s.link with busMaster := on }) rfl rfl id .same
  · refine .of_link (l := { s.link with busMaster := on }) rfl rfl id (within_foldl_accessFails _ ?_)
    exact (inside_accesses .same).within

theorem effect_registerWriteRow {o : BitVec 12} {n : Nat} {v : Word} :
    Effect (.registerWrite o n v) s
      (awake s fun s => if n = 4 then writeRegister o.toNat v s else s) := by
  refine .of_awake ?_
  split
  next e => exact e ▸ effect_registerWrite
  · exact .same

theorem effect_unknownCommand :
    Effect .unknownCommand s (whenRunning s fun s =>
      match s.mgmt.command with
      | some c =>
        if c.phase = .execute && unknownOpcode (opcode c.entry) then reply .unknownCommand s else s
      | none => s) :=
  .of_inside (inside_whenRunning .same fun _ h => by
    split
    · split
      · exact inside_reply h
      · exact h
    · exact h)

theorem effect_stopComplete : Effect .stopComplete s (awake s fun s => if s.stopDone then stopped s else s) := by
  refine .of_awake ?_
  split
  next done =>
    refine .ended ?_
    simp only [State.stopDone, Bool.and_eq_true, beq_iff_eq] at done
    exact done.1.1
  · exact .same

/-- A step of a block that acts while the controller is RUNNING. -/
theorem Effect.of_running {f : State → State} (hf : ∀ {u}, Inside s u → Inside s (f u)) :
    Effect c s (whenRunning s f) :=
  .of_inside (inside_whenRunning .same fun _ => hf)

/-- The row of a management command. -/
theorem Effect.of_command {op : Byte} {f : List Byte → State → State}
    (hf : ∀ e u, Inside s u → Inside s (f e u)) : Effect c s (runCommand op f s) :=
  .of_inside (inside_runCommand .same hf)

/-- The end of a host access. -/
theorem Effect.of_access {f : Access → Bool} {k got : Nat} {ok : Bool}
    {g : Access → Bool → State → State} (hg : ∀ a b u, Within s u → Within s (g a b u)) :
    Effect c s (awake s fun s => endAccess f k ok got g s) :=
  .of_awake (.of_within (within_endAccess .same hg))

/-- Every command of the table goes on to a next state, and what it does is one of the five effects. -/
theorem exec_effect (c : Instr) (s : State) : ∃ t, exec c s = .next t ∧ Effect c s t := by
  cases c with
  | powerOnReset => exact ⟨_, rfl, .reset (by trivial) _ _⟩
  | linkReset => exact ⟨_, rfl, .reset (by trivial) _ _⟩
  | softReset _ => exact ⟨_, rfl, .of_awake (.reset (by trivial) _ _)⟩
  | controllerEnable => exact ⟨_, rfl, .of_awake effect_enableController⟩
  | controllerStop => exact ⟨_, rfl, .of_awake effect_stopController⟩
  | stopComplete => exact ⟨_, rfl, effect_stopComplete⟩
  | gsrStrayClear _ => exact ⟨_, rfl, .of_awake effect_gsrWrite⟩
  | isrClear _ => exact ⟨_, rfl, .of_awake (.isr _ (.inl rfl))⟩
  | imrWrite _ => exact ⟨_, rfl, .of_awake (.imr _ (.inl rfl))⟩
  | registerWrite _ _ _ => exact ⟨_, rfl, effect_registerWriteRow⟩
  | mqPostedNotify _ => exact ⟨_, rfl, .of_within (within_awake (within_notify .same))⟩
  | rqPostedNotify _ _ => exact ⟨_, rfl, .of_within (within_awake (within_notify .same))⟩
  | receiveRingPostedNotify _ => exact ⟨_, rfl, .of_within (within_awake (within_notify .same))⟩
  | mcqConsumedNotify _ => exact ⟨_, rfl, .of_within (within_awake (within_notify .same))⟩
  | cqConsumedNotify _ _ => exact ⟨_, rfl, .of_within (within_awake (within_notify .same))⟩
  | strayNotify _ _ _ => exact ⟨_, rfl, .of_within (within_awake (within_notify .same))⟩
  | busMasteringChange _ => exact ⟨_, rfl, .of_awake effect_setBusMaster⟩
  | accessTimeout _ => exact ⟨_, rfl, .of_within (within_awake (within_timeoutAccess .same))⟩
  | headerReadEnd _ _ => exact ⟨_, rfl, .of_access fun _ _ _ => within_headerEnd⟩
  | mqEntryTake => exact ⟨_, rfl, .of_running inside_takeMqEntry⟩
  | mqEntryReadEnd _ _ => exact ⟨_, rfl, .of_access fun _ _ _ => within_mqEntryEnd⟩
  | mqStatusWordWriteEnd _ => exact ⟨_, rfl, .of_access fun _ _ _ => within_mqStatusEnd⟩
  | unknownCommand => exact ⟨_, rfl, effect_unknownCommand⟩
  | identify => exact ⟨_, rfl, .of_command fun _ _ => inside_writeBuffer⟩
  | createCompletionQueue => exact ⟨_, rfl, .of_command fun _ _ => inside_createCq⟩
  | deleteCompletionQueue => exact ⟨_, rfl, .of_command fun _ _ => inside_deleteCq⟩
  | createRequestQueue => exact ⟨_, rfl, .of_command fun _ _ => inside_createRq⟩
  | deleteRequestQueue => exact ⟨_, rfl, .of_command fun _ _ => inside_deleteRq⟩
  | configurePort => exact ⟨_, rfl, .of_command fun _ _ => inside_configure⟩
  | enablePort => exact ⟨_, rfl, .of_command fun _ _ => inside_enable⟩
  | disablePort => exact ⟨_, rfl, .of_command fun _ _ => inside_disable⟩
  | restartPort => exact ⟨_, rfl, .of_command fun _ _ => inside_restart⟩
  | setReceiveRing => exact ⟨_, rfl, .of_command fun _ _ => inside_setRing⟩
  | writeImage => exact ⟨_, rfl, .of_command fun _ _ => inside_writeImage⟩
  | setReply => exact ⟨_, rfl, .of_command fun _ _ => inside_setReply⟩
  | defineTrigger => exact ⟨_, rfl, .of_command fun _ _ => inside_defineTrigger⟩
  | enableTriggers _ => exact ⟨_, rfl, .of_command fun _ _ => inside_armTriggers⟩
  | disableTriggers => exact ⟨_, rfl, .of_command fun _ _ => inside_disarmTriggers⟩
  | clearTrigger => exact ⟨_, rfl, .of_command fun _ _ => inside_clearTrigger⟩
  | queryTrigger => exact ⟨_, rfl, .of_command fun _ _ => inside_queryTrigger⟩
  | setTick => exact ⟨_, rfl, .of_command fun _ _ => inside_setTick⟩
  | abort => exact ⟨_, rfl, .of_command fun _ _ => inside_abortTag⟩
  | readPortStatistics => exact ⟨_, rfl, .of_command fun _ _ => inside_readStatistics⟩
  | commandHostAccessEnd _ _ => exact ⟨_, rfl, .of_access fun _ _ _ h => h.then_inside (inside_commandAccessEnd .same)⟩
  | mcqWriteSequence => exact ⟨_, rfl, .of_awake (.of_inside (inside_beginCompletion .same))⟩
  | eventRecord _ => exact ⟨_, rfl, .of_awake (.of_inside (inside_beginEvent .same))⟩
  | mcqRecordWriteEnd _ => exact ⟨_, rfl, .of_access fun _ _ _ => within_mcqRecordEnd⟩
  | mcqStatusWordWriteEnd _ => exact ⟨_, rfl, .of_access fun _ _ _ => within_mcqStatusEnd⟩
  | fetchTurn => exact ⟨_, rfl, .of_running inside_fetchTurn⟩
  | rqEntryReadEnd _ _ => exact ⟨_, rfl, .of_access fun _ _ _ h => h.then_inside (inside_rqEntryEnd .same)⟩
  | rqStatusWordWriteEnd _ _ _ => exact ⟨_, rfl, .of_access fun _ _ _ h => h.then_inside (inside_rqStatusEnd .same)⟩
  | dispatch _ => exact ⟨_, rfl, .of_running inside_dispatch⟩
  | stagingReadEnd _ _ _ => exact ⟨_, rfl, .of_access fun _ _ _ h => h.then_inside (inside_stagingEnd .same)⟩
  | attemptBegin _ => exact ⟨_, rfl, .of_running inside_beginAttempt⟩
  | masterStart _ _ => exact ⟨_, rfl, .of_awake (.of_inside (inside_makeStart .same))⟩
  | masterAddressByte _ _ => exact ⟨_, rfl, .of_awake (.of_inside (inside_addressByteSent .same))⟩
  | masterDataByteSent _ _ => exact ⟨_, rfl, .of_awake (.of_inside (inside_dataByteSent .same))⟩
  | masterByteReceived _ _ => exact ⟨_, rfl, .of_awake (.of_inside (inside_byteReceived .same))⟩
  | countByte _ _ => exact ⟨_, rfl, .of_awake (.of_inside (inside_countReceived .same))⟩
  | checkByte _ _ _ => exact ⟨_, rfl, .of_awake (.of_inside (inside_checkByteDone .same))⟩
  | repeatedStart _ _ => exact ⟨_, rfl, .of_awake (.of_inside (inside_makeRestart .same))⟩
  | masterStopComplete _ => exact ⟨_, rfl, .of_awake (.of_inside (inside_stopComplete .same))⟩
  | segmentOpen _ => exact ⟨_, rfl, .of_running inside_openSegment⟩
  | arbitrationLoss _ _ _ => exact ⟨_, rfl, .of_awake (.of_inside (inside_arbitrationLost .same))⟩
  | retryGapExpiry _ => exact ⟨_, rfl, .of_inside (inside_whenLive .same fun _ => inside_gapExpiry)⟩
  | deadlineExpiry _ => exact ⟨_, rfl, .of_running inside_deadlineExpiry⟩
  | drainingWriteEnd _ _ => exact ⟨_, rfl, .of_access fun _ _ _ h => h.then_inside (inside_drainingEnd .same)⟩
  | recordSelection => exact ⟨_, rfl, .of_inside (inside_whenLive .same fun _ => inside_selectRecord)⟩
  | recordWriteEnd _ => exact ⟨_, rfl, .of_access fun _ _ _ h => h.then_inside (inside_recordEnd .same)⟩
  | cqStatusWordWriteEnd _ _ _ => exact ⟨_, rfl, .of_access fun _ _ _ h => h.then_inside (inside_cqStatusEnd .same)⟩
  | coalescingTimerExpiry _ => exact ⟨_, rfl, .of_inside (inside_whenLive .same fun _ => inside_coalescingExpiry)⟩
  | busStartSeen _ => exact ⟨_, rfl, .of_awake (.of_inside (inside_startSeen .same))⟩
  | busStopSeen _ => exact ⟨_, rfl, .of_awake (.of_inside (inside_stopSeen .same))⟩
  | idleTimeExpiry _ => exact ⟨_, rfl, .of_awake (.of_inside (inside_idleTimeExpiry .same))⟩
  | clockLowTimeout _ => exact ⟨_, rfl, .of_awake (.of_inside (inside_clockLowExpiry .same))⟩
  | stuckDataTimeout _ => exact ⟨_, rfl, .of_awake (.of_inside (inside_stuckDataExpiry .same))⟩
  | recoverySclHigh _ _ => exact ⟨_, rfl, .of_running inside_sclHigh⟩
  | recoveryPulse _ _ => exact ⟨_, rfl, .of_running inside_pulseEnd⟩
  | recoveryStop _ _ _ => exact ⟨_, rfl, .of_running inside_recoveryStopEnd⟩
  | recoveryFinalWaitEnd _ => exact ⟨_, rfl, .of_running inside_finalWaitEnd⟩
  | restartIdleWaitEnd _ => exact ⟨_, rfl, .of_running inside_restartWaitEnd⟩
  | recoveryLimitExpiry _ _ => exact ⟨_, rfl, .of_running inside_limitExpiry⟩
  | addressByte _ _ => exact ⟨_, rfl, .of_running inside_addressSeen⟩
  | imageWriteByte _ _ => exact ⟨_, rfl, .of_running inside_imageWritten⟩
  | mailboxWriteByte _ _ => exact ⟨_, rfl, .of_running inside_mailboxWritten⟩
  | imageReadByte _ _ => exact ⟨_, rfl, .of_running inside_imageSent⟩
  | replyReadByte _ _ => exact ⟨_, rfl, .of_running inside_replySent⟩
  | targetReadConflict _ => exact ⟨_, rfl, .of_running inside_readConflict⟩
  | targetTransferEnd _ _ => exact ⟨_, rfl, .of_running inside_transferEnd⟩
  | stretchLimitExpiry _ => exact ⟨_, rfl, .of_running inside_stretchExpiry⟩
  | targetDrainEnd _ _ => exact ⟨_, rfl, .of_access fun _ _ _ h => h.then_inside (inside_drainEnded .same)⟩
  | receiveFetchStart => exact ⟨_, rfl, .of_running inside_startFetch⟩
  | receiveFetchEnd _ _ => exact ⟨_, rfl, .of_access fun _ _ _ h => h.then_inside (inside_fetchEnd .same)⟩
  | receiveStatusWordWriteEnd _ _ => exact ⟨_, rfl, .of_access fun _ _ _ h => h.then_inside (inside_rxStatusEnd .same)⟩
  | tick _ => exact ⟨_, rfl, .of_running inside_takeTick⟩
  | periodicExpiry _ => exact ⟨_, rfl, .of_running inside_periodicExpiry⟩
  | endOfHoldoff _ _ => exact ⟨_, rfl, .of_running inside_holdoffEnd⟩
  | alertFallingTransition _ => exact ⟨_, rfl, .of_running fun h => inside_foldl (fun _ _ _ => inside_alertEdge) _ (inside_setAlert h)⟩
  | linkResetDeasserted => exact ⟨_, rfl, .of_link (l := { s.link with linkReset := false }) rfl rfl id .same⟩
  | controllerStatusWordWriteEnd _ _ => exact ⟨_, rfl, .of_access fun _ _ _ => id⟩

end Sys2Proof.Machine
end

section
/-! SUPPORT. The statements about the whole machine that follow from what a command can do (`exec_effect`):
every step completes, the registers agree with the controller, the controller's moves, the changes of the
timebase and of the interrupt registers, and the interrupt messages. -/

namespace Sys2Proof.Machine

variable {s t : State} {c : Instr}

theorem effect_of_exec (h : exec c s = .next t) : Effect c s t := by
  obtain ⟨u, hu, e⟩ := exec_effect c s
  rw [hu] at h
  cases h
  exact e

/-- A step runs the command in front on the state with the queue's rest, or lets a microsecond pass. -/
theorem step_cases (s : State) :
    (s.pending = [] ∧ step s = .next (tickTimebase s)) ∨
    ∃ c rest, s.pending = c :: rest ∧ step s = exec c { s with pending := rest } := by
  unfold step
  cases h : s.pending with
  | nil => exact .inl ⟨rfl, rfl⟩
  | cons c rest => exact .inr ⟨c, rest, rfl, rfl⟩

/-! ### A microsecond -/

theorem tickTimebase_keeps (s : State) : (tickTimebase s).pending = s.pending ∧ (tickTimebase s).link = s.link ∧
    (tickTimebase s).ints = s.ints := by
  unfold tickTimebase
  split <;> exact ⟨rfl, rfl, rfl⟩

theorem tickTimebase_pending (s : State) : (tickTimebase s).pending = s.pending := (tickTimebase_keeps s).1
theorem tickTimebase_link (s : State) : (tickTimebase s).link = s.link := (tickTimebase_keeps s).2.1
theorem tickTimebase_ints (s : State) : (tickTimebase s).ints = s.ints := (tickTimebase_keeps s).2.2

/-! ### The reset state and the end of a stop -/

theorem stopped_link (s : State) : (stopped s).link = { s.link with ctrl := .disabled, en := false } := rfl
theorem stopped_ints (s : State) : (stopped s).ints = { s.ints with isr := 0 } := rfl

theorem port_reset (p : PortId) : State.reset.port p = Port.reset := by simp [State.port, State.reset]
theorem txn_reset (k : SlotId) : State.reset.txn k = none := by
  have free : State.reset.slots.get k = .free := by simp [State.reset]
  unfold State.txn
  rw [free]

/-! ### The queue of commands -/

theorem Effect.pending (h : Effect c s t) : t.pending = s.pending := by
  cases h with
  | steps _ i => exact i.pending
  | reset | ended | isr | imr => rfl

/-! ### The registers -/

theorem registersWellFormed_of_eq (hl : t.link = s.link) (hi : t.ints = s.ints)
    (h : RegistersWellFormed s) : RegistersWellFormed t := by
  unfold RegistersWellFormed at *
  rwa [hl, hi]

/-- A write of ISR sets no bit (R118). -/
theorem isrWrite_getLsbD_of_clear {v : Word} {i : Nat} (h : s.ints.isr.getLsbD i = false) :
    (isrWrite v s).ints.isr.getLsbD i = false := by
  unfold isrWrite setInts
  dsimp only
  rw [BitVec.getLsbD_and, h, Bool.false_and]

theorem Effect.registers (h : Effect c s t) (w : RegistersWellFormed s) : RegistersWellFormed t := by
  obtain ⟨en, sbl, isr5, isr6⟩ := w
  cases h with
  | steps l i =>
    exact ⟨l.en en, l.sbl sbl, i.isr5.trans isr5, i.isr6.trans isr6⟩
  | reset => exact ⟨by simp [resetAll, Link.reset], rfl, BitVec.getLsbD_zero, BitVec.getLsbD_zero⟩
  | ended => exact ⟨by simp [stopped_link], sbl, BitVec.getLsbD_zero, BitVec.getLsbD_zero⟩
  | isr v => exact ⟨en, sbl, isrWrite_getLsbD_of_clear isr5, isrWrite_getLsbD_of_clear isr6⟩
  | imr v => exact ⟨en, sbl, isr5, isr6⟩

/-- A set ISR bit that the host does not write 1 to stays set (R118). -/
theorem isrWrite_getLsbD {v : Word} {i : Nat} (h : s.ints.isr.getLsbD i = true)
    (hv : v.getLsbD i = false) : (isrWrite v s).ints.isr.getLsbD i = true := by
  have small : i < 8 := by
    by_contra g
    rw [BitVec.getLsbD_of_ge _ _ (by omega)] at h
    cases h
  simp [isrWrite, setInts, h, hv, small]

/-- Replacing ISR and IMR sends one message when the request rises (R119). -/
theorem setInts_sent (i m : Byte) (s : State) :
    (setInts i m s).ints.sent = s.ints.sent +
      if !s.ints.request && (setInts i m s).ints.request && s.link.busMaster then 1 else 0 := by
  have request : (setInts i m s).ints.request = Ints.request ⟨i, m, s.ints.sent⟩ := rfl
  rw [request]
  unfold setInts
  dsimp only
  split <;> rfl

/-- The end of a stop clears ISR, and so ends the request. -/
theorem request_stopped (s : State) : (stopped s).ints.request = false := by
  simp [stopped_ints, Ints.request]

end Sys2Proof.Machine

namespace Sys2Proof.Proofs

open Sys2Proof.Machine

/-- Settles O1: by the definition of the step. -/
theorem stepRunsFrontCommand : Obligations.StepRunsFrontCommand := by
  intro c rest s h
  simp only [step, h]

/-- Settles O2: with no command waiting a step is one microsecond of the timebase. -/
theorem idleStepPassesOneMicrosecond : Obligations.IdleStepPassesOneMicrosecond := by
  intro s h
  have idle : step s = .next (tickTimebase s) := by simp only [step, h]
  refine ⟨fun awake => ?_, fun asleep => ?_⟩
  · simp [idle, tickTimebase, awake]
  · simp [idle, tickTimebase, asleep]

/-- Settles O3: every command has an effect, and none of the effects touches the queue. -/
theorem everyStepCompletes : Obligations.EveryStepCompletes := by
  refine ⟨fun c s => ?_, fun s => ?_⟩
  · obtain ⟨t, h, e⟩ := exec_effect c s
    exact ⟨t, h, e.pending⟩
  · rcases step_cases s with ⟨empty, h⟩ | ⟨c, rest, front, h⟩
    · exact ⟨_, h, by rw [tickTimebase_pending, empty]; rfl⟩
    · obtain ⟨t, ht, e⟩ := exec_effect c { s with pending := rest }
      exact ⟨t, h.trans ht, by rw [e.pending, front]; rfl⟩

/-- Settles O4: the reset state, object by object. -/
theorem resetValues : Obligations.ResetValues := by
  refine ⟨by decide, rfl, rfl, rfl, rfl, fun q => ?_, fun n => ?_, rfl, rfl, rfl, rfl, fun k => ?_,
    fun p => ?_, fun t => ?_, rfl, rfl, rfl, rfl, rfl⟩
  · simp [State.rq, State.reset, RqCtx.reset]
  · simp [State.cq, State.reset, CqCtx.reset]
  · simp [State.reset]
  · rw [port_reset]
    exact ⟨rfl, rfl, rfl, rfl, rfl, rfl, rfl, rfl, rfl, rfl⟩
  · simp [State.trigger, State.reset, TrigUnit.reset, Trigger.reset]

/-- Settles O5: in the reset state no list holds anything and the controller is DISABLED. -/
theorem invariantsHoldAtReset : Obligations.InvariantsHoldAtReset := by
  have empty : ∀ p, (State.reset.port p).list = [] ∧ (State.reset.port p).inService = none := fun p => by
    rw [port_reset]
    exact ⟨rfl, rfl⟩
  refine ⟨⟨by decide, rfl, rfl, rfl⟩, Nat.zero_le _,
    fun p => ?_, fun p k served => ?_, ⟨fun k t held => ?_, fun tn turn => ?_⟩,
    fun _ => ⟨rfl, fun a ha => ?_⟩⟩
  · rw [(empty p).1]; exact Nat.zero_le _
  · rw [(empty p).2] at served; cases served
  · rw [txn_reset k] at held; cases held
  · cases turn
  · cases ha

/-- Settles O6: a microsecond leaves the registers, and each effect keeps their agreement. -/
theorem registersStayWellFormed : Obligations.RegistersStayWellFormed := by
  intro s t w h
  rcases step_cases s with ⟨-, e⟩ | ⟨c, rest, -, e⟩
  · rw [e] at h
    cases h
    exact registersWellFormed_of_eq (tickTimebase_link s) (tickTimebase_ints s) w
  · exact (effect_of_exec (e.symm.trans h)).registers (s := { s with pending := rest }) w

/-- Settles O8: by the effect of the command. -/
theorem controllerMovesAsGiven : Obligations.ControllerMovesAsGiven := by
  intro c s t h
  cases effect_of_exec h with
  | steps l =>
    rcases l.ctrl with e | e | e | e | e
    · exact .inl e
    · exact .inr (.inl e)
    · exact .inr (.inr (.inl e))
    · exact .inr (.inr (.inr (.inl e)))
    · exact .inr (.inr (.inr (.inr (.inl e))))
  | reset => exact .inr (.inr (.inr (.inr (.inr (.inr ⟨rfl, rfl⟩)))))
  | ended stopping => exact .inr (.inr (.inr (.inr (.inr (.inl ⟨stopping, rfl⟩)))))
  | isr | imr => exact .inl rfl

/-- Settles O9: by the effect of the command. -/
theorem registersChangeAsGiven : Obligations.RegistersChangeAsGiven := by
  intro c s t h
  cases effect_of_exec h with
  | steps _ i => exact ⟨.inl i.timebase, .inl i.imr, fun j hj => .inl (i.isr j hj)⟩
  | reset resets =>
    refine ⟨.inr ⟨rfl, ?_⟩, .inr (.inl ⟨rfl, rfl⟩), fun _ _ => .inr (.inl rfl)⟩
    cases c <;> simp only [Resets] at resets
    case powerOnReset => exact .inl rfl
    case linkReset => exact .inr (.inl rfl)
    case softReset en => exact .inr (.inr (.inl ⟨en, rfl⟩))
    case registerWrite o n v =>
      obtain ⟨rfl, rfl, srst⟩ := resets
      exact .inr (.inr (.inr ⟨v, rfl, srst⟩))
  | ended => exact ⟨.inl rfl, .inl rfl, fun _ _ => .inr (.inl rfl)⟩
  | isr v row =>
    refine ⟨.inl rfl, .inl rfl, fun j hj => ?_⟩
    cases written : v.getLsbD j with
    | true => exact .inr (.inr ⟨v, written, row⟩)
    | false => exact .inl (isrWrite_getLsbD hj written)
  | imr v row => exact ⟨.inl rfl, .inr (.inr ⟨v, rfl, row⟩), fun _ => .inl⟩

/-- Settles O10: by the effect of the command; the resets are left out. -/
theorem oneMessagePerRise : Obligations.OneMessagePerRise := by
  intro c s t h noPower noLink noSoft noSrst
  cases effect_of_exec h with
  | steps _ i => exact i.sent
  | reset resets =>
    cases c <;> simp only [Resets] at resets
    case powerOnReset => exact absurd rfl noPower
    case linkReset => exact absurd rfl noLink
    case softReset en => exact absurd rfl (noSoft en)
    case registerWrite o n v =>
      obtain ⟨rfl, rfl, srst⟩ := resets
      exact absurd rfl (noSrst v srst)
  | ended => rw [request_stopped, stopped_ints]; simp
  | isr | imr => exact setInts_sent ..

end Sys2Proof.Proofs
end

section
/-! SUPPORT. The bounds of the lists, the place of the in-service transactions and the kinds of the slots
over every effect, and the part at rest until the controller is RUNNING: in DISABLED and STARTING no command
but the end of the header read finds anything to act on. From them the statement ListsAndSlotsStayBounded. -/

namespace Sys2Proof.Machine

variable {s t : State} {c : Instr}

/-! ### The bounds -/

theorem port_of_ports_reset (h : t.ports = State.reset.ports) (p : PortId) : t.port p = Port.reset := by
  unfold State.port
  rw [h]
  exact get_replicate _ _

theorem listsBounded_of_ports_reset (h : t.ports = State.reset.ports) : ListsBounded t := fun p => by
  rw [port_of_ports_reset h]; exact Nat.zero_le _

theorem servedIsFirst_of_ports_reset (h : t.ports = State.reset.ports) : ServedIsFirst t := fun p k served => by
  rw [port_of_ports_reset h] at served; cases served

theorem slotKinds_of_reset (h : t.slots = State.reset.slots) (g : t.fetch = State.reset.fetch) :
    SlotKinds t := by
  refine ⟨fun k u held => ?_, fun tn turn => ?_⟩
  · have free : t.slots.get k = .free := by rw [h]; exact get_replicate _ _
    simp [State.txn, free] at held
  · rw [g] at turn; cases turn

theorem Effect.holding (h : Effect c s t) (b : HoldingBounded s) : HoldingBounded t := by
  cases h with
  | steps _ i => exact i.holding b
  | reset | ended => exact Nat.zero_le _
  | isr | imr => exact b

theorem Effect.lists (h : Effect c s t) (b : ListsBounded s) : ListsBounded t := by
  cases h with
  | steps _ i => exact i.lists b
  | reset | ended => exact listsBounded_of_ports_reset rfl
  | isr | imr => exact b

theorem Effect.served (h : Effect c s t) (b : ServedIsFirst s) : ServedIsFirst t := by
  cases h with
  | steps _ i => exact i.served b
  | reset | ended => exact servedIsFirst_of_ports_reset rfl
  | isr | imr => exact b

theorem Effect.kinds (h : Effect c s t) (b : SlotKinds s) : SlotKinds t := by
  cases h with
  | steps _ i => exact i.kinds b
  | reset | ended => exact slotKinds_of_reset rfl rfl
  | isr | imr => exact b

/-- A microsecond changes of a port only which expiries may still be taken. -/
theorem tickTimebase_keepsList (s : State) (p : PortId) :
    ((tickTimebase s).port p).list = (s.port p).list ∧
      ((tickTimebase s).port p).inService = (s.port p).inService := by
  cases h : s.link.linkReset with
  | false => rw [tickTimebase_port h]; exact ⟨rfl, rfl⟩
  | true => simp [tickTimebase, h]

/-- A microsecond changes the timebase and the ports alone. -/
theorem tickTimebase_eq (s : State) :
    tickTimebase s = { s with timebase := (tickTimebase s).timebase, ports := (tickTimebase s).ports } := by
  unfold tickTimebase; split <;> rfl

/-! ### The part at rest (R193, R196, R197) -/

/-- Everything but the registers, the timebase, the pins and the queue of commands is at its reset value,
and only a header read is in flight. -/
structure AtRest (s : State) : Prop where
  mgmt : s.mgmt = Mgmt.reset
  rqs : s.rqs = State.reset.rqs
  slots : s.slots = State.reset.slots
  fetch : s.fetch = FetchUnit.reset
  ports : s.ports = State.reset.ports
  cqs : s.cqs = State.reset.cqs
  comp : s.comp = Completion.reset
  rx : s.rx = RxRing.reset
  trig : s.trig = { TrigUnit.reset with alertLow := s.trig.alertLow }
  header : ∀ a ∈ s.accesses, a.kind = .header

theorem atRest_iff : AtRest s ↔
    s = { State.reset with
      pending := s.pending, link := s.link, ints := s.ints, timebase := s.timebase,
      accesses := s.accesses, trig := { State.reset.trig with alertLow := s.trig.alertLow } } ∧
    ∀ a ∈ s.accesses, a.kind = .header := by
  constructor
  · intro h
    refine ⟨?_, h.header⟩
    obtain ⟨mgmt, rqs, slots, fetch, ports, cqs, comp, rx, trig, -⟩ := h
    cases s
    dsimp only at *
    subst mgmt rqs slots fetch ports cqs comp rx
    rw [State.mk.injEq]
    exact ⟨rfl, rfl, rfl, rfl, rfl, rfl, rfl, rfl, rfl, rfl, rfl, rfl, rfl, trig⟩
  · rintro ⟨e, header⟩
    exact ⟨by rw [e]; rfl, by rw [e], by rw [e], by rw [e]; rfl, by rw [e], by rw [e], by rw [e]; rfl,
      by rw [e]; rfl, by rw [e]; rfl, header⟩

/-- The controller has not been RUNNING since a reset or a stop. -/
def Ctrl.early (x : Ctrl) : Prop := x = .disabled ∨ x = .starting

theorem restsUntilRunning_iff : RestsUntilRunning s ↔ (s.link.ctrl.early → AtRest s) := by
  unfold RestsUntilRunning
  rw [← atRest_iff]
  rfl

theorem AtRest.rests (h : AtRest s) : RestsUntilRunning s := restsUntilRunning_iff.mpr fun _ => h

/-- Past STARTING nothing is claimed. -/
theorem rests_of_not_early (h : ¬ s.link.ctrl.early) : RestsUntilRunning s :=
  restsUntilRunning_iff.mpr fun g => absurd g h

/-- A change of the host link's registers, of ISR and IMR, of time and the accesses leaves the rest. -/
theorem AtRest.of_eq (h : AtRest s)
    (e : t = { s with
      pending := t.pending, link := t.link, ints := t.ints, timebase := t.timebase,
      accesses := t.accesses })
    (header : ∀ a ∈ t.accesses, a.kind = .header) : AtRest t := by
  rw [e]
  exact ⟨h.mgmt, h.rqs, h.slots, h.fetch, h.ports, h.cqs, h.comp, h.rx, h.trig, header⟩

theorem AtRest.port (h : AtRest s) (p : PortId) : s.port p = Port.reset := port_of_ports_reset h.ports p

/-- The part is at rest, in DISABLED or STARTING. -/
structure Resting (s : State) : Prop where
  rest : AtRest s
  early : s.link.ctrl.early

theorem Resting.not_running (h : Resting s) : s.link.ctrl ≠ .running := by
  rcases h.early with e | e <;> simp [e]
theorem Resting.not_stopping (h : Resting s) : s.link.ctrl ≠ .stopping := by
  rcases h.early with e | e <;> simp [e]
theorem Resting.not_live (h : Resting s) : s.live = false := by
  rcases h.early with e | e <;> simp [State.live, e]

/-- A command keeps the rest: nothing has happened, or the controller is past STARTING. -/
abbrev Keeps (s t : State) : Prop := Resting s → RestsUntilRunning t

theorem Keeps.same : Keeps s s := fun h => h.rest.rests
theorem Keeps.of_eq (h : Resting s → t = s) : Keeps s t := fun g => by rw [h g]; exact g.rest.rests
theorem Keeps.awake {f : State → State} (h : Keeps s (f s)) : Keeps s (awake s f) := by
  unfold Machine.awake
  split
  · exact .same
  · exact h

theorem whenRunning_of_ne {f : State → State} (h : s.link.ctrl ≠ .running) : whenRunning s f = s := by
  simp [whenRunning, awake, h]
theorem whenLive_of_not {f : State → State} (h : s.live = false) : whenLive s f = s := by
  simp [whenLive, awake, h]

theorem Keeps.running {f : State → State} : Keeps s (whenRunning s f) :=
  .of_eq fun h => whenRunning_of_ne h.not_running
theorem Keeps.live {f : State → State} : Keeps s (whenLive s f) :=
  .of_eq fun h => whenLive_of_not h.not_live
theorem Keeps.command {op : Byte} {f : List Byte → State → State} : Keeps s (runCommand op f s) :=
  .of_eq fun h => whenRunning_of_ne h.not_running

theorem Keeps.link {l : Link} : Keeps s { s with link := l } := fun h =>
  (h.rest.of_eq (t := { s with link := l }) rfl h.rest.header).rests

theorem Keeps.notify {side : Bool} {i : Nat} {n : Half} : Keeps s (notify side i n s) := fun h => by
  have stray : Machine.notify side i n s = setStray s := by simp [Machine.notify, h.not_live]
  rw [stray]
  exact Keeps.link h

/-! ### Host accesses while the part is at rest -/

/-- None but the header read ends. -/
theorem Keeps.access {f : Access → Bool} {k got : Nat} {ok : Bool} {g : Access → Bool → State → State}
    (hf : ∀ a : Access, a.kind = .header → f a = false) :
    Keeps s (Machine.awake s fun s => endAccess f k ok got g s) := by
  refine .awake (.of_eq fun h => ?_)
  have none_found : popAccess f k s.accesses = none := by
    rcases e : popAccess f k s.accesses with - | ⟨a, rest⟩
    · rfl
    · obtain ⟨pre, post, split, -, named, -⟩ := popAccess_iff.mp e
      have := hf a (h.rest.header a (by rw [split]; simp))
      rw [this] at named
      cases named
  simp [endAccess, none_found]

theorem ctrl_enterHalted {f : HaltFault} (h : s.link.ctrl = .starting ∨ s.link.ctrl = .running) :
    (enterHalted f s).link.ctrl = .halted := by
  rcases enterHalted_spec f s with ⟨-, i⟩ | ⟨not_starting, not_running, -⟩
  · rw [i.link]; rfl
  · rcases h with h | h
    · exact absurd h not_starting
    · exact absurd h not_running

/-- The end of the header read: in DISABLED it is nothing, and in STARTING it ends the start. -/
theorem Keeps.headerEnd {ok : Bool} {b : List Byte} : Keeps s (headerEnd ok b s) := fun h => by
  rcases h.early with disabled | starting
  · simpa [Machine.headerEnd, disabled] using h.rest.rests
  · refine rests_of_not_early ?_
    have halted := fun f => ctrl_enterHalted (s := s) (f := f) (.inl starting)
    simp only [Machine.headerEnd, starting, if_true]
    split
    · simp [halted, Ctrl.early]
    · split
      · simp [enterRunning, writeControllerStatus, writeMqStatus, Ctrl.early]
      · simp [halted, Ctrl.early]

/-- The end of an access of which the block that issued it makes nothing, or ends the start. -/
theorem Keeps.popped {f : Access → Bool} {k got : Nat} {ok : Bool} {g : Access → Bool → State → State}
    (hg : ∀ a b u, a.kind = .header → Keeps u (g a b u)) :
    Keeps s (Machine.awake s fun s => endAccess f k ok got g s) := by
  refine .awake fun h => ?_
  unfold endAccess
  split
  · exact h.rest.rests
  next a rest found =>
    obtain ⟨pre, post, split, rfl, -, -⟩ := popAccess_iff.mp found
    have members : ∀ x ∈ pre ++ a :: post, x.kind = .header := split ▸ h.rest.header
    have resting : Resting { s with accesses := pre ++ post } :=
      ⟨h.rest.of_eq rfl fun x hx => members x (by simp at hx ⊢; tauto), h.early⟩
    dsimp only
    split
    · exact h.rest.rests
    · split
      · exact hg _ _ _ (members a (by simp)) resting
      · exact resting.rest.rests

/-- From HALTED nothing on the way leads back to STARTING. -/
theorem Within.not_early (h : Within s t) (early : ¬ s.link.ctrl.early) : ¬ t.link.ctrl.early := by
  rcases h.link.ctrl with e | ⟨e, -⟩ | ⟨-, e⟩
  · rwa [e]
  · exact absurd (.inr e) early
  · simp [e, Ctrl.early]

/-- A failing header read: nothing in DISABLED, a halt in STARTING. -/
theorem accessFails_resting {a : Access} (h : Resting s) (header : a.kind = .header) :
    accessFails s a = s ∨ ¬ (accessFails s a).link.ctrl.early := by
  have told : accessFails s a = headerEnd false [] s := by
    simp [accessFails, State.heeds, h.not_stopping, failAccess, header]
  rcases h.early with disabled | starting
  · left; simp [told, headerEnd, disabled]
  · right
    have halted := ctrl_enterHalted (s := s) (f := .setupFault) (.inl starting)
    simp [told, headerEnd, starting, halted, Ctrl.early]

theorem Keeps.foldl_accessFails {l : List Access} (header : ∀ a ∈ l, a.kind = .header) :
    Keeps s (l.foldl accessFails s) := fun h => by
  induction l with
  | nil => exact h.rest.rests
  | cons a l ih =>
    rw [List.foldl_cons]
    rcases accessFails_resting h (header a (by simp)) with same | past
    · rw [same]; exact ih fun b hb => header b (by simp [hb])
    · exact rests_of_not_early ((within_foldl_accessFails l .same).not_early past)

theorem Keeps.setBusMaster {on : Bool} : Keeps s (setBusMaster on s) := fun h => by
  unfold Machine.setBusMaster
  dsimp only
  split
  · exact Keeps.link h
  · refine Keeps.foldl_accessFails h.rest.header ⟨h.rest.of_eq rfl (by simp), h.early⟩

theorem Keeps.timeoutAccess {k : Nat} : Keeps s (timeoutAccess k s) := fun h => by
  unfold Machine.timeoutAccess
  split
  next a rest found =>
    obtain ⟨pre, post, split, rfl, -, -⟩ := popAccess_iff.mp found
    have members : ∀ x ∈ pre ++ a :: post, x.kind = .header := split ▸ h.rest.header
    split
    · have resting : Resting { s with accesses := pre ++ post } :=
        ⟨h.rest.of_eq rfl fun x hx => members x (by simp at hx ⊢; tauto), h.early⟩
      exact Keeps.foldl_accessFails (l := [a]) (by simpa using members a (by simp)) resting
    · exact h.rest.rests
  · exact h.rest.rests

/-! ### Events while the part is at rest -/

theorem Keeps.attempt {p : PortId} {f : Engine → SlotId → Txn → State → State} :
    Keeps s (withAttempt p f s) :=
  .of_eq fun h => by
    have none_begun : (s.port p).eng.phase = .none := by rw [h.rest.port]; rfl
    simp [withAttempt, none_begun]

theorem Resting.off (h : Resting s) (p : PortId) : (s.port p).state = .off := by rw [h.rest.port]; rfl

theorem Keeps.startSeen {p : PortId} : Keeps s (startSeen p s) :=
  .of_eq fun h => by simp [Machine.startSeen, h.off]
theorem Keeps.stopSeen {p : PortId} : Keeps s (stopSeen p s) :=
  .of_eq fun h => by simp [Machine.stopSeen, h.off]
theorem Keeps.idleTimeExpiry {p : PortId} : Keeps s (idleTimeExpiry p s) :=
  .of_eq fun h => by simp [Machine.idleTimeExpiry, h.off]
theorem Resting.no_timers (h : Resting s) (p : PortId) (r : FaultReason) (x : Word) :
    s.expires p r x = false := by simp [State.expires, State.timersRun, h.off]
theorem Keeps.clockLowExpiry {p : PortId} : Keeps s (clockLowExpiry p s) :=
  .of_eq fun h => by simp [Machine.clockLowExpiry, h.no_timers]
theorem Keeps.stuckDataExpiry {p : PortId} : Keeps s (stuckDataExpiry p s) :=
  .of_eq fun h => by simp [Machine.stuckDataExpiry, h.no_timers]
theorem Keeps.beginCompletion : Keeps s (beginCompletion s) :=
  .of_eq fun h => by simp [Machine.beginCompletion, h.rest.mgmt, Mgmt.reset]
theorem Keeps.beginEvent {l : Latch} : Keeps s (beginEvent l s) :=
  .of_eq fun h => by simp [Machine.beginEvent, earliest, h.rest.mgmt, Mgmt.reset]

/-! ### Registers, resets, start and stop -/

theorem atRest_of_reset {l : Link} {i : Ints} {x : Word} {q : List Instr} {v : Vector Bool 4} :
    AtRest { State.reset with
      pending := q, link := l, ints := i, timebase := x,
      trig := { TrigUnit.reset with alertLow := v } } :=
  ⟨rfl, rfl, rfl, rfl, rfl, rfl, rfl, rfl, rfl, by simp [State.reset]⟩

theorem Keeps.reset {b r : Bool} : Keeps s (resetAll b r s) := fun _ => atRest_of_reset.rests
theorem Keeps.setInts {i m : Byte} : Keeps s (setInts i m s) := fun h =>
  (h.rest.of_eq (t := Machine.setInts i m s) rfl h.rest.header).rests

theorem Keeps.enableController : Keeps s (enableController s) := fun h => by
  unfold Machine.enableController
  split
  · refine (h.rest.of_eq rfl fun a ha => ?_).rests
    simp only [issue, List.mem_append, List.mem_singleton] at ha
    rcases ha with ha | rfl
    · exact h.rest.header a ha
    · rfl
  · exact h.rest.rests

theorem Keeps.stopController : Keeps s (stopController s) := fun h => by
  rcases stopController_spec s with ⟨-, i⟩ | ⟨-, -, -, e⟩
  · exact rests_of_not_early (by rw [i.link]; simp [Ctrl.early])
  · rw [e]; exact h.rest.rests

theorem Keeps.gsrWrite {v : Word} : Keeps s (gsrWrite v s) := by
  unfold Machine.gsrWrite
  split
  · exact .link
  · exact .same

theorem Keeps.registerWrite {o : BitVec 12} {n : Nat} {v : Word} : Keeps s
    (Machine.awake s fun s => if n = 4 then writeRegister o.toNat v s else s) := by
  refine .awake ?_
  split
  · unfold writeRegister
    split
    · unfold gcrWrite
      split
      · exact .reset
      · split
        · exact .enableController
        · exact .stopController
    · exact .gsrWrite
    · exact .link
    · exact .link
    · exact .notify
    · exact .setInts
    · exact .setInts
    · exact .same
  · exact .same

theorem Keeps.stopComplete : Keeps s (Machine.awake s fun s => if s.stopDone then stopped s else s) := by
  refine .awake ?_
  split
  · exact fun _ => atRest_of_reset.rests
  · exact .same

/-- In DISABLED and STARTING every command keeps the part at rest, or takes the controller past STARTING. -/
theorem exec_keeps (c : Instr) (h : exec c s = .next t) : Keeps s t := by
  cases c <;> cases h
  case powerOnReset => exact .reset
  case linkReset => exact .reset
  case softReset => exact .awake .reset
  case controllerEnable => exact .awake .enableController
  case controllerStop => exact .awake .stopController
  case stopComplete => exact .stopComplete
  case gsrStrayClear => exact .awake .gsrWrite
  case isrClear => exact .awake .setInts
  case imrWrite => exact .awake .setInts
  case registerWrite => exact .registerWrite
  case mqPostedNotify => exact .awake .notify
  case rqPostedNotify => exact .awake .notify
  case receiveRingPostedNotify => exact .awake .notify
  case mcqConsumedNotify => exact .awake .notify
  case cqConsumedNotify => exact .awake .notify
  case strayNotify => exact .awake .notify
  case busMasteringChange => exact .awake .setBusMaster
  case accessTimeout => exact .awake .timeoutAccess
  case headerReadEnd => exact .popped fun _ _ _ _ => .headerEnd
  case mqEntryTake => exact .running
  case unknownCommand => exact .running
  case fetchTurn => exact .running
  case dispatch => exact .running
  case attemptBegin => exact .running
  case segmentOpen => exact .running
  case deadlineExpiry => exact .running
  case recoverySclHigh => exact .running
  case recoveryPulse => exact .running
  case recoveryStop => exact .running
  case recoveryFinalWaitEnd => exact .running
  case restartIdleWaitEnd => exact .running
  case recoveryLimitExpiry => exact .running
  case addressByte => exact .running
  case imageWriteByte => exact .running
  case mailboxWriteByte => exact .running
  case imageReadByte => exact .running
  case replyReadByte => exact .running
  case targetReadConflict => exact .running
  case targetTransferEnd => exact .running
  case stretchLimitExpiry => exact .running
  case receiveFetchStart => exact .running
  case tick => exact .running
  case periodicExpiry => exact .running
  case endOfHoldoff => exact .running
  case alertFallingTransition => exact .running
  case mqEntryReadEnd => exact .access fun a e => by simp [isKind, e]
  case mqStatusWordWriteEnd => exact .access fun a e => by simp [isMqStatus, e]
  case mcqRecordWriteEnd => exact .access fun a e => by simp [isKind, e]
  case mcqStatusWordWriteEnd => exact .access fun a e => by simp [isMcqStatus, e]
  case rqEntryReadEnd => exact .access fun a e => by simp [isRqEntry, e]
  case rqStatusWordWriteEnd => exact .access fun a e => by simp [isKind, e]
  case stagingReadEnd => exact .access fun a e => by simp [isKind, e]
  case drainingWriteEnd => exact .access fun a e => by simp [isKind, e]
  case recordWriteEnd => exact .access fun a e => by simp [isKind, e]
  case cqStatusWordWriteEnd => exact .access fun a e => by simp [isCqStatus, e]
  case targetDrainEnd => exact .access fun a e => by simp [isKind, e]
  case receiveFetchEnd => exact .access fun a e => by simp [isKind, e]
  case receiveStatusWordWriteEnd => exact .access fun a e => by simp [isKind, e]
  case controllerStatusWordWriteEnd => exact .access fun a e => by simp [isKind, e]
  case identify => exact .command
  case createCompletionQueue => exact .command
  case deleteCompletionQueue => exact .command
  case createRequestQueue => exact .command
  case deleteRequestQueue => exact .command
  case configurePort => exact .command
  case enablePort => exact .command
  case disablePort => exact .command
  case restartPort => exact .command
  case setReceiveRing => exact .command
  case writeImage => exact .command
  case setReply => exact .command
  case defineTrigger => exact .command
  case enableTriggers => exact .command
  case disableTriggers => exact .command
  case clearTrigger => exact .command
  case queryTrigger => exact .command
  case setTick => exact .command
  case abort => exact .command
  case readPortStatistics => exact .command
  case commandHostAccessEnd => exact .popped fun a b u e => .of_eq fun _ => by simp [commandAccessEnd, e]
  case mcqWriteSequence => exact .awake .beginCompletion
  case eventRecord => exact .awake .beginEvent
  case masterStart => exact .awake .attempt
  case masterAddressByte => exact .awake .attempt
  case masterDataByteSent => exact .awake .attempt
  case masterByteReceived => exact .awake .attempt
  case countByte => exact .awake .attempt
  case checkByte => exact .awake .attempt
  case repeatedStart => exact .awake .attempt
  case masterStopComplete => exact .awake .attempt
  case arbitrationLoss => exact .awake .attempt
  case retryGapExpiry => exact .live
  case recordSelection => exact .live
  case coalescingTimerExpiry => exact .live
  case busStartSeen => exact .awake .startSeen
  case busStopSeen => exact .awake .stopSeen
  case idleTimeExpiry => exact .awake .idleTimeExpiry
  case clockLowTimeout => exact .awake .clockLowExpiry
  case stuckDataTimeout => exact .awake .stuckDataExpiry
  case linkResetDeasserted => exact .link

/-- No controller state is reached from beyond STARTING but by a reset or the end of a stop. -/
theorem Effect.rests (h : Effect c s t) (past : ¬ s.link.ctrl.early) : RestsUntilRunning t := by
  cases h with
  | steps l _ =>
    refine rests_of_not_early ?_
    rcases l.ctrl with e | ⟨e, -⟩ | ⟨e, -⟩ | ⟨-, e⟩ | ⟨-, e⟩
    · rwa [e]
    · exact absurd (.inl e) past
    · exact absurd (.inr e) past
    · simp [e, Ctrl.early]
    · simp [e, Ctrl.early]
  | reset | ended => exact atRest_of_reset.rests
  | isr | imr => exact rests_of_not_early past

theorem exec_rests (h : exec c s = .next t) (rests : RestsUntilRunning s) : RestsUntilRunning t := by
  by_cases early : s.link.ctrl.early
  · exact exec_keeps c h ⟨restsUntilRunning_iff.mp rests early, early⟩
  · exact (effect_of_exec h).rests early

theorem rests_pending {q : List Instr} (rests : RestsUntilRunning s) :
    RestsUntilRunning { s with pending := q } :=
  restsUntilRunning_iff.mpr fun early =>
    have rest := restsUntilRunning_iff.mp rests early
    rest.of_eq (t := { s with pending := q }) rfl rest.header

theorem tickTimebase_rests (rests : RestsUntilRunning s) : RestsUntilRunning (tickTimebase s) := by
  refine restsUntilRunning_iff.mpr fun early => ?_
  have rest := restsUntilRunning_iff.mp rests (by rwa [tickTimebase_link] at early)
  unfold tickTimebase
  split
  · exact rest
  · refine ⟨rest.mgmt, rest.rqs, rest.slots, rest.fetch, ?_, rest.cqs, rest.comp, rest.rx, rest.trig,
      rest.header⟩
    dsimp only
    rw [rest.ports]
    simp [State.reset, Port.reset]

end Sys2Proof.Machine

namespace Sys2Proof.Proofs

open Sys2Proof.Machine

/-- Settles O7: a microsecond leaves the lists, the slots and the rest, and each command keeps them by its
effect; the part at rest by what commands find there. -/
theorem listsAndSlotsStayBounded : Obligations.ListsAndSlotsStayBounded := by
  intro s t h
  rcases step_cases s with ⟨-, e⟩ | ⟨c, rest, -, e⟩
  · rw [e] at h
    cases h
    have same := tickTimebase_keepsList s
    have rest := tickTimebase_eq s
    refine ⟨fun b => ?_, fun b p => ?_, fun b p k served => ?_, fun b => ?_, tickTimebase_rests⟩
    · rw [rest]; exact b
    · rw [(same p).1]; exact b p
    · rw [(same p).1]; rw [(same p).2] at served; exact b p k served
    · rw [rest]; exact b
  · have ran := e.symm.trans h
    have effect := effect_of_exec ran
    exact ⟨effect.holding, effect.lists, effect.served, effect.kinds, fun rests => exec_rests ran (rests_pending rests)⟩

end Sys2Proof.Proofs
end

section
/-! SUPPORT. Resets, the start, the stop and the register window: what the rows of chapter 10 make of the
state, and from them the statements ResetsClearThePart, GcrWrites, EnableStarts, StopCompletes and
RegistersAreWritten. -/

namespace Sys2Proof.Machine

variable {s t : State}

/-! ### Guards -/

/-- A row that `awake` guards acts when the part is not held in reset, and does nothing otherwise (R197). -/
theorem awake_of_awake {f : State → State} (h : Awake s) : awake s f = f s := by simp [awake, h]
theorem awake_of_linkReset {f : State → State} (h : s.link.linkReset = true) : awake s f = s := by
  simp [awake, h]
theorem whenRunning_of_running {f : State → State} (h : Running s) : whenRunning s f = f s := by
  simp [whenRunning, awake, h.1, h.2]
theorem live_of_live (h : Live s) : s.live = true := by
  rcases h.2 with e | e <;> simp [State.live, e]
theorem whenLive_of_live {f : State → State} (h : Live s) : whenLive s f = f s := by
  simp [whenLive, awake, h.1, live_of_live h]
theorem not_live_of_awake (a : Awake s) (h : ¬ Live s) : s.live = false := by
  simp only [Live, a, true_and, not_or] at h
  simp [State.live, h.1, h.2]

/-! ### Interrupts (R119) -/

/-- What replacing ISR and IMR does, with the message sent when the request rises. -/
theorem setInts_eq (i m : Byte) (s : State) :
    setInts i m s = { s with
      ints := {
        isr := i, imr := m,
        sent := s.ints.sent +
          if s.ints.isr &&& ~~~ s.ints.imr = 0 ∧ i &&& ~~~ m ≠ 0 ∧ s.link.busMaster = true then 1
          else 0 } } := by
  have rise : (!s.ints.request && Ints.request ⟨i, m, s.ints.sent⟩ && s.link.busMaster) = true ↔
      s.ints.isr &&& ~~~ s.ints.imr = 0 ∧ i &&& ~~~ m ≠ 0 ∧ s.link.busMaster = true := by
    simp [Ints.request, and_assoc]
  unfold setInts
  dsimp only
  simp only [rise]
  split <;> rfl

/-- Clearing ISR bits makes no request rise. -/
theorem isrWrite_eq (v : Word) (s : State) :
    isrWrite v s = { s with ints := { s.ints with isr := s.ints.isr &&& ~~~ v.extractLsb' 0 8 } } := by
  rw [isrWrite, setInts_eq, if_neg]
  · rfl
  · rintro ⟨quiet, rises, -⟩
    refine rises ?_
    rw [BitVec.and_assoc, BitVec.and_comm (~~~ v.extractLsb' 0 8), ← BitVec.and_assoc, quiet]
    exact BitVec.zero_and

/-! ### The register window (R186) -/

theorem exec_registerWrite (o : BitVec 12) (v : Word) (h : Awake s) :
    exec (.registerWrite o 4 v) s = .next (writeRegister o.toNat v s) := by
  show Host.Outcome.next (awake s _) = _
  rw [awake_of_awake h]
  rfl

theorem exec_registerWrite_of_ne (o : BitVec 12) {n : Nat} (v : Word) (h : Awake s) (hn : n ≠ 4) :
    exec (.registerWrite o n v) s = .next s := by
  show Host.Outcome.next (awake s _) = _
  rw [awake_of_awake h, if_neg hn]

/-- An offset that holds no register, and that of IDR, takes no write (R186). -/
theorem writeRegister_of_no_register {o : BitVec 12} (v : Word)
    (h : o ∉ [0x004#12, 0x008#12, 0x00C#12, 0x010#12, 0x014#12, 0x018#12, 0x01C#12]) :
    writeRegister o.toNat v s = s := by
  have offset : ∀ n : Nat, n < 2 ^ 12 → o.toNat = n → o = BitVec.ofNat 12 n := fun n hn e =>
    BitVec.eq_of_toNat_eq (by rw [e, BitVec.toNat_ofNat, Nat.mod_eq_of_lt hn])
  unfold writeRegister
  split
  next e => exact absurd (by rw [offset 0x004 (by decide) e]; decide) h
  next e => exact absurd (by rw [offset 0x008 (by decide) e]; decide) h
  next e => exact absurd (by rw [offset 0x00C (by decide) e]; decide) h
  next e => exact absurd (by rw [offset 0x010 (by decide) e]; decide) h
  next e => exact absurd (by rw [offset 0x014 (by decide) e]; decide) h
  next e => exact absurd (by rw [offset 0x018 (by decide) e]; decide) h
  next e => exact absurd (by rw [offset 0x01C (by decide) e]; decide) h
  · rfl

theorem exec_gcr (v : Word) (h : Awake s) :
    exec (.registerWrite 0x004 4 v) s = .next (gcrWrite v s) := exec_registerWrite _ v h
theorem exec_ntf (v : Word) (h : Awake s) :
    exec (.registerWrite 0x014 4 v) s =
      .next (notify (v.getLsbD 24) (v.extractLsb' 16 8).toNat (v.extractLsb' 0 16) s) :=
  exec_registerWrite _ v h

theorem exec_softReset (en : Bool) (h : Awake s) : exec (.softReset en) s = .next (softReset s) :=
  congrArg Host.Outcome.next (awake_of_awake h)
theorem exec_controllerEnable (h : Awake s) :
    exec .controllerEnable s = .next (enableController s) :=
  congrArg Host.Outcome.next (awake_of_awake h)
theorem exec_controllerStop (h : Awake s) : exec .controllerStop s = .next (stopController s) :=
  congrArg Host.Outcome.next (awake_of_awake h)
theorem exec_isrClear (v : Word) (h : Awake s) : exec (.isrClear v) s = .next (isrWrite v s) :=
  congrArg Host.Outcome.next (awake_of_awake h)
theorem exec_imrWrite (v : Word) (h : Awake s) : exec (.imrWrite v) s = .next (imrWrite v s) :=
  congrArg Host.Outcome.next (awake_of_awake h)
theorem exec_gsrStrayClear (v : Word) (h : Awake s) :
    exec (.gsrStrayClear v) s = .next (gsrWrite v s) :=
  congrArg Host.Outcome.next (awake_of_awake h)

/-- The notify rows: each is the notify of its ring's side and index (R190). -/
theorem exec_strayNotify (side : Bool) (index : Byte) (n : Half) (h : Awake s) :
    exec (.strayNotify side index n) s = .next (notify side index.toNat n s) :=
  congrArg Host.Outcome.next (awake_of_awake h)
theorem exec_mqPostedNotify (n : Half) (h : Awake s) :
    exec (.mqPostedNotify n) s = .next (notify false 0 n s) :=
  congrArg Host.Outcome.next (awake_of_awake h)
theorem exec_rqPostedNotify (q : RqId) (n : Half) (h : Awake s) :
    exec (.rqPostedNotify q n) s = .next (notify false (q.val + 1) n s) :=
  congrArg Host.Outcome.next (awake_of_awake h)
theorem exec_receiveRingPostedNotify (n : Half) (h : Awake s) :
    exec (.receiveRingPostedNotify n) s = .next (notify false 9 n s) :=
  congrArg Host.Outcome.next (awake_of_awake h)
theorem exec_mcqConsumedNotify (n : Half) (h : Awake s) :
    exec (.mcqConsumedNotify n) s = .next (notify true 0 n s) :=
  congrArg Host.Outcome.next (awake_of_awake h)
theorem exec_cqConsumedNotify (q : CqId) (n : Half) (h : Awake s) :
    exec (.cqConsumedNotify q n) s = .next (notify true (q.val + 1) n s) :=
  congrArg Host.Outcome.next (awake_of_awake h)

/-! ### Start and stop -/

theorem enableController_of_disabled (h : s.link.ctrl = .disabled) :
    enableController s = ({ s with
      link := { s.link with
        ctrl := .starting, en := true, haltFault := .nothing,
        setupBase := s.link.sbh ++ s.link.sbl } }.issued .header
      (.read [(s.link.sbh ++ s.link.sbl, 64)]) false) := by
  unfold enableController
  rw [if_pos h]
  rfl

theorem enableController_of_ne (h : s.link.ctrl ≠ .disabled) : enableController s = s := if_neg h

theorem stopController_of_stops
    (h : s.link.ctrl = .starting ∨ s.link.ctrl = .running ∨ s.link.ctrl = .halted) :
    stopController s = allPorts.foldl stopPort
      { s with
        link := { s.link with ctrl := .stopping, en := false },
        trig := { s.trig with prescaler := none, tickDue := [] } } := by
  unfold stopController
  rw [if_pos (by rcases h with h | h | h <;> simp [h])]

theorem stopController_of_rests (h : s.link.ctrl = .disabled ∨ s.link.ctrl = .stopping) :
    stopController s = s := by
  unfold stopController
  rw [if_neg (by rcases h with h | h <;> simp [h])]

theorem link_stopController
    (h : s.link.ctrl = .starting ∨ s.link.ctrl = .running ∨ s.link.ctrl = .halted) :
    (stopController s).link = { s.link with ctrl := .stopping, en := false } := by
  rcases stopController_spec s with ⟨-, i⟩ | ⟨a, b, c, -⟩
  · exact i.link
  · rcases h with h | h | h
    · exact absurd h a
    · exact absurd h b
    · exact absurd h c

/-- The stop is complete once nothing is in flight and every port is at rest (R195). -/
theorem stopDone_iff : s.stopDone = true ↔ s.link.ctrl = .stopping ∧ s.accesses = [] ∧
    ∀ p, (s.port p).sclDriven = false ∧ (s.port p).sdaDriven = false ∧
      (s.port p).eng.phase = .none := by
  simp [State.stopDone, Port.atRest, allPorts, and_assoc]

theorem exec_stopComplete (h : Awake s) :
    exec .stopComplete s = .next (if s.stopDone then stopped s else s) :=
  congrArg Host.Outcome.next (awake_of_awake h)

end Sys2Proof.Machine

namespace Sys2Proof.Proofs

open Sys2Proof.Machine

/-- Settles O11: each row but those of the reset input is guarded by it, and the resets are one
operation. -/
theorem resetsClearThePart : Obligations.ResetsClearThePart := by
  refine ⟨fun c s asserted noPower noLink noRelease => ?_, fun s => ⟨rfl, rfl, rfl, fun en out => ?_⟩⟩
  · cases c
    case powerOnReset => exact absurd rfl noPower
    case linkReset => exact absurd rfl noLink
    case linkResetDeasserted => exact absurd rfl noRelease
    all_goals exact congrArg Host.Outcome.next (awake_of_linkReset asserted)
  · rw [exec_softReset en out, softReset, out]
    rfl

/-- Settles O12: the row of GCR is the soft reset, the enable or the stop by its two bits. -/
theorem gcrWrites : Obligations.GcrWrites := by
  refine ⟨fun s v out => ⟨fun srst => ?_, fun noSrst en => ?_, fun noSrst noEn => ?_⟩, fun s w => ?_⟩
  · rw [exec_gcr v out, exec_softReset _ out, exec_softReset _ out, gcrWrite, if_pos srst]
    exact ⟨rfl, rfl⟩
  · have row : exec (.registerWrite 0x004 4 v) s = .next (enableController s) := by
      rw [exec_gcr v out, gcrWrite, noSrst, en]; rfl
    rw [row, exec_controllerEnable out]
    refine ⟨rfl, fun disabled => ⟨_, rfl, ?_⟩, fun other => by rw [enableController_of_ne other]⟩
    rw [enableController_of_disabled disabled]
    exact ⟨rfl, rfl⟩
  · have row : exec (.registerWrite 0x004 4 v) s = .next (stopController s) := by
      rw [exec_gcr v out, gcrWrite, noSrst, noEn]; rfl
    rw [row, exec_controllerStop out]
    refine ⟨rfl, fun stops => ⟨_, rfl, ?_⟩, fun rests => by rw [stopController_of_rests rests]⟩
    rw [link_stopController stops]
    exact ⟨rfl, rfl⟩
  · rw [← w.1]
    cases e : s.link.en <;> simp [readRegister, e]

/-- Settles O13: by the two cases of the enable. -/
theorem enableStarts : Obligations.EnableStarts := by
  intro s out
  rw [exec_controllerEnable out]
  exact ⟨fun disabled => by rw [enableController_of_disabled disabled],
    fun other => by rw [enableController_of_ne other]⟩

/-- Settles O15: the row acts exactly when the stop is complete. -/
theorem stopCompletes : Obligations.StopCompletes := by
  intro s out
  rw [exec_stopComplete out]
  refine ⟨fun done => by rw [if_pos (stopDone_iff.mpr done)]; rfl, fun busy => ?_⟩
  rw [if_neg]
  intro done
  obtain ⟨stopping, empty, ports⟩ := stopDone_iff.mp done
  rcases busy with h | h | ⟨p, h⟩
  · exact h stopping
  · exact h empty
  · obtain ⟨scl, sda, idle⟩ := ports p
    simp [scl, sda, idle] at h

/-- Settles O17: each register's write is its own row, and a notify's row is that of its ring. -/
theorem registersAreWritten : Obligations.RegistersAreWritten := by
  intro s v out
  refine ⟨fun o n hn => exec_registerWrite_of_ne o v out hn, fun o ho => ?_,
    exec_registerWrite _ v out, exec_registerWrite _ v out, ?_, ?_, ⟨fun side => ⟨fun index => ?_,
    fun q index => ?_, fun index => ?_⟩, fun side => ⟨fun index => ?_, fun n index => ?_⟩⟩, ?_, ?_,
    fun clears => ?_, fun leaves => ?_, ?_, ?_⟩
  · rw [exec_registerWrite o v out, writeRegister_of_no_register v ho]
  · rw [exec_gsrStrayClear v out]; exact exec_registerWrite _ v out
  · rw [exec_ntf v out, exec_strayNotify _ _ _ out]
  · rw [exec_ntf v out, exec_mqPostedNotify _ out, side, index]; rfl
  · rw [exec_ntf v out, exec_rqPostedNotify q _ out, side, index]
  · rw [exec_ntf v out, exec_receiveRingPostedNotify _ out, side, index]; rfl
  · rw [exec_ntf v out, exec_mcqConsumedNotify _ out, side, index]; rfl
  · rw [exec_ntf v out, exec_cqConsumedNotify n _ out, side, index]
  · rw [exec_isrClear v out]; exact exec_registerWrite _ v out
  · rw [exec_imrWrite v out]; exact exec_registerWrite _ v out
  · rw [exec_gsrStrayClear v out, gsrWrite, if_pos clears]
  · rw [exec_gsrStrayClear v out, gsrWrite, leaves]; rfl
  · rw [exec_isrClear v out, isrWrite_eq]
  · rw [exec_imrWrite v out, imrWrite, setInts_eq]

end Sys2Proof.Proofs
end

section
/-! SUPPORT. What the engine of a port does at a controller stop or a halt (R85), what the entry to STOPPING
does to a port (R195), and how an operation on one object after another acts on each (`foldl_each`). From them
the statement StopLeavesTheBuses. -/

namespace Sys2Proof.Machine

variable {s t : State} {p q : PortId} {k : SlotId}

/-! ### The engine at a stop or a halt (R85) -/

/-- What a stop or a halt makes of the port, but for the target unit and the recovery. -/
def Port.quieted (now : Word) (reached : List FaultReason) (P : Port) : Port :=
  match P.eng.phase with
  | .none => P
  | .between => { P with eng := Engine.reset, sclDriven := false, sdaDriven := false }
  | .opening =>
    if P.eng.restart then
      { P with eng := { P.eng with
        phase := .closing, segment := P.eng.segment + 1, restart := false, quiet := true } }
    else
      { P with
        state := .idle, clockLowFrom := now, stuckDataFrom := now, tied := P.tied ++ reached,
        eng := Engine.reset, sclDriven := false, sdaDriven := false }
  | _ => { P with eng := { P.eng with quiet := true } }

theorem endQuiet_eq (p : PortId) (s : State) :
    endQuiet p s = { s with ports := (endQuiet p s).ports, slots := (endQuiet p s).slots } := by
  unfold endQuiet
  dsimp only
  split
  · unfold State.modTxn; split <;> rfl
  · rfl

theorem endQuiet_port (p q : PortId) (s : State) :
    (endQuiet p s).port q = if p = q then
      { s.port p with eng := Engine.reset, sclDriven := false, sdaDriven := false } else s.port q := by
  unfold endQuiet
  dsimp only
  split <;> simp

theorem endQuiet_txn (p : PortId) (k : SlotId) (s : State) :
    (endQuiet p s).txn k =
      if (s.port p).inService = some k then (s.txn k).map fun t => { t with state := .ready }
      else s.txn k := by
  unfold endQuiet
  dsimp only
  rw [port_modPort, if_pos rfl]
  split
  next j served =>
    rw [txn_modTxn, served]
    by_cases e : j = k
    · simp [e]
    · simp [e]
  next free =>
    have free : (s.port p).inService = none := free
    simp [free]

theorem takeQuiet_eq (p : PortId) (s : State) :
    takeQuiet p s = { s with ports := (takeQuiet p s).ports, slots := (takeQuiet p s).slots } := by
  unfold takeQuiet
  dsimp only
  split
  · rfl
  · exact endQuiet_eq p s
  · split
    · rfl
    · rw [endQuiet_eq]; rfl
  · rfl

theorem takeQuiet_port (p : PortId) (s : State) :
    (takeQuiet p s).port p = (s.port p).quieted s.timebase (s.timeoutsReached p) := by
  cases e : (s.port p).eng.phase
  case opening =>
    cases restart : (s.port p).eng.restart <;>
      simp [takeQuiet, Port.quieted, e, restart, endQuiet_port, backToIdle, tieTimeouts]
  all_goals simp [takeQuiet, Port.quieted, e, endQuiet_port]

theorem takeQuiet_port_of_ne (s : State) (h : q ≠ p) : (takeQuiet p s).port q = s.port q := by
  unfold takeQuiet
  dsimp only
  split
  · rfl
  · rw [endQuiet_port, if_neg h.symm]
  · split
    · rw [port_modPort, if_neg h.symm]
    · rw [endQuiet_port, if_neg h.symm, backToIdle, port_modPort, if_neg h.symm, tieTimeouts_port,
        if_neg h.symm]
  · rw [port_modPort, if_neg h.symm]

/-- The transaction of an attempt that ends at once is READY again; every other one stays (R85). -/
theorem takeQuiet_txn_of_ends (s : State) (h : (s.port p).eng.endsAtOnce)
    (served : (s.port p).inService = some k) :
    (takeQuiet p s).txn k = (s.txn k).map fun t => { t with state := .ready } := by
  unfold takeQuiet
  dsimp only
  rcases h with e | ⟨e, restart⟩
  · simp only [e]
    rw [endQuiet_txn, if_pos served]
  · simp only [e, restart]
    rw [if_neg (by simp), endQuiet_txn, if_pos (by simp [backToIdle, served])]
    rfl

theorem takeQuiet_txn_of_not (s : State)
    (h : (s.port p).inService = some k → ¬ (s.port p).eng.endsAtOnce) :
    (takeQuiet p s).txn k = s.txn k := by
  unfold takeQuiet
  dsimp only
  split
  · rfl
  next e =>
    rw [endQuiet_txn, if_neg fun served => h served (.inl e)]
  next e =>
    split
    · rfl
    next restart =>
      rw [endQuiet_txn, if_neg fun served => h (by simpa [backToIdle] using served) (.inr ⟨e, by simpa using restart⟩)]
      rfl
  · rfl

/-! ### One object after another -/

/-- An operation on one object after another, each leaving the other objects alone, finds every object as it
was and leaves it as it makes it; what it keeps on the way, the whole keeps. -/
theorem foldl_each {ι α : Type} (get : State → ι → α) {f : State → ι → State} {R : State → State → Prop}
    (refl : ∀ s, R s s) (trans : ∀ {r s t}, R r s → R s t → R r t) (step : ∀ s p, R s (f s p))
    (own : ∀ s p q, q ≠ p → get (f s p) q = get s q) (l : List ι) (nodup : l.Nodup) (s : State) :
    R s (l.foldl f s) ∧ (∀ q, q ∉ l → get (l.foldl f s) q = get s q) ∧
      ∀ p ∈ l, ∃ u, R s u ∧ get u p = get s p ∧ R (f u p) (l.foldl f s) ∧
        get (l.foldl f s) p = get (f u p) p := by
  induction l generalizing s with
  | nil => exact ⟨refl s, fun _ _ => rfl, fun p hp => by cases hp⟩
  | cons a l ih =>
    obtain ⟨fresh, nodup⟩ := List.nodup_cons.mp nodup
    obtain ⟨kept, others, each⟩ := ih nodup (f s a)
    refine ⟨trans (step s a) kept, fun q hq => ?_, fun p hp => ?_⟩
    · obtain ⟨ne, out⟩ := not_or.mp (List.mem_cons.not.mp hq)
      exact (others q out).trans (own s a q ne)
    · rcases List.mem_cons.mp hp with rfl | hp
      · exact ⟨s, refl s, rfl, kept, others p fresh⟩
      · have ne : p ≠ a := fun e => fresh (e ▸ hp)
        obtain ⟨u, before, same, after, result⟩ := each p hp
        exact ⟨u, trans (step s a) before, same.trans (own s a p ne), after, result⟩

theorem foldl_ports {f : State → PortId → State} {R : State → State → Prop} (refl : ∀ s, R s s)
    (trans : ∀ {r s t}, R r s → R s t → R r t) (step : ∀ s p, R s (f s p))
    (own : ∀ s p q, q ≠ p → (f s p).port q = s.port q) (l : List PortId) (nodup : l.Nodup) (s : State) :
    R s (l.foldl f s) ∧ (∀ q, q ∉ l → (l.foldl f s).port q = s.port q) ∧
      ∀ p ∈ l, ∃ u, R s u ∧ u.port p = s.port p ∧ R (f u p) (l.foldl f s) ∧
        (l.foldl f s).port p = (f u p).port p :=
  foldl_each State.port refl trans step own l nodup s

/-- A transaction that no port of the list has in service as `ends` says is left by the whole. -/
theorem foldl_txn {f : State → PortId → State} {ends : Engine → Prop}
    (own : ∀ s p q, q ≠ p → (f s p).port q = s.port q)
    (left : ∀ s p k, ((s.port p).inService = some k → ¬ ends (s.port p).eng) → (f s p).txn k = s.txn k)
    (l : List PortId) (nodup : l.Nodup) (s : State)
    (h : ∀ p ∈ l, (s.port p).inService = some k → ¬ ends (s.port p).eng) :
    (l.foldl f s).txn k = s.txn k := by
  induction l generalizing s with
  | nil => rfl
  | cons a l ih =>
    obtain ⟨fresh, nodup⟩ := List.nodup_cons.mp nodup
    refine (ih nodup (f s a) fun p hp => ?_).trans (left s a k (h a (by simp)))
    rw [own s a p fun e => fresh (e ▸ hp)]
    exact h p (by simp [hp])

theorem nodup_allPorts : allPorts.Nodup := List.nodup_finRange 4
theorem mem_allPorts (p : PortId) : p ∈ allPorts := List.mem_finRange p

/-! ### Transactions taken back -/

/-- Between `s` and `t` a transaction stays, or is READY again. -/
def TakenBack (s t : State) : Prop :=
  ∀ k, t.txn k = s.txn k ∨ t.txn k = (s.txn k).map fun u => { u with state := .ready }

theorem TakenBack.same : TakenBack s s := fun _ => .inl rfl
theorem TakenBack.trans {r : State} (h : TakenBack r s) (g : TakenBack s t) : TakenBack r t := fun k => by
  have twice : ((r.txn k).map fun u => ({ u with state := .ready } : Txn)).map
      (fun u => ({ u with state := .ready } : Txn)) = (r.txn k).map fun u => { u with state := .ready } := by
    simp [Function.comp_def]
  rcases h k with e | e <;> rcases g k with e' | e' <;> rw [e', e]
  · exact .inl rfl
  · exact .inr rfl
  · exact .inr rfl
  · exact .inr twice

/-- A transaction that is READY again stays so. -/
theorem TakenBack.ready (h : TakenBack s t) {u : Option Txn}
    (hs : s.txn k = u.map fun v => { v with state := .ready }) :
    t.txn k = u.map fun v => { v with state := .ready } := by
  rcases h k with e | e
  · rw [e, hs]
  · rw [e, hs]; simp [Function.comp_def]

theorem takenBack_takeQuiet (p : PortId) (s : State) : TakenBack s (takeQuiet p s) := fun k => by
  by_cases h : (s.port p).inService = some k ∧ (s.port p).eng.endsAtOnce
  · exact .inr (takeQuiet_txn_of_ends s h.2 h.1)
  · exact .inl (takeQuiet_txn_of_not s fun served ends => h ⟨served, ends⟩)

/-! ### A port at the entry to STOPPING (R195) -/

/-- What the entry to STOPPING makes of a port. -/
def Port.stopping (now : Word) (reached : List FaultReason) (P : Port) : Port :=
  let Q := P.quieted now reached
  { Q with
    sclDriven := if Q.eng.phase = .none then false else Q.sclDriven
    sdaDriven := if Q.eng.phase = .none then false else Q.sdaDriven
    recovery := .none, tgt := { Q.tgt with transfer := .none }
    state := if Q.state = .target then .observing else Q.state }

theorem stopPort_port (s : State) (p : PortId) :
    (stopPort s p).port p = (s.port p).stopping s.timebase (s.timeoutsReached p) := by
  unfold stopPort Port.stopping
  simp only [leaveTarget, releaseLines, takeQuiet_port]
  split
  · simp [takeQuiet_port]
  · simp [takeQuiet_port]

theorem stopPort_port_of_ne (s : State) (p q : PortId) (h : q ≠ p) : (stopPort s p).port q = s.port q := by
  unfold stopPort
  simp only [leaveTarget, releaseLines]
  split <;> simp [h.symm, takeQuiet_port_of_ne s h]

theorem stopPort_eq (s : State) (p : PortId) :
    stopPort s p = { s with ports := (stopPort s p).ports, slots := (stopPort s p).slots } := by
  unfold stopPort
  dsimp only
  split <;> · simp only [leaveTarget, releaseLines, State.modPort]; rw [takeQuiet_eq]

theorem stopPort_slots (s : State) (p : PortId) : (stopPort s p).slots = (takeQuiet p s).slots := by
  unfold stopPort
  dsimp only
  split <;> rfl

theorem stopPort_txn (s : State) (p : PortId) (k : SlotId) : (stopPort s p).txn k = (takeQuiet p s).txn k := by
  unfold State.txn; rw [stopPort_slots]

theorem Port.stopping_facts (now : Word) (x : List FaultReason) (P : Port) :
    let Q := P.stopping now x
    Q.tgt.transfer = .none ∧ Q.recovery = .none ∧ Q.state ≠ .target ∧ Q.eng.phase ≠ .between ∧
      (Q.eng.phase = .none → Q.sclDriven = false ∧ Q.sdaDriven = false) ∧
      (P.eng.endsAtOnce → Q.eng = Engine.reset) ∧
      Q.cfg = P.cfg ∧ Q.stats = P.stats ∧ Q.list = P.list := by
  refine ⟨rfl, rfl, ?_, ?_, ?_, ?_, ?_⟩
  · unfold Port.stopping
    dsimp only
    split
    · simp
    next other => exact other
  · unfold Port.stopping Port.quieted
    cases e : P.eng.phase <;> simp [e, Engine.reset]
    split <;> simp
  · intro e
    have e' : (P.quieted now x).eng.phase = .none := e
    simp [Port.stopping, e']
  · rintro (e | ⟨e, restart⟩)
    · simp [Port.stopping, Port.quieted, e]
    · simp [Port.stopping, Port.quieted, e, restart]
  · unfold Port.stopping Port.quieted
    dsimp only
    split
    · exact ⟨rfl, rfl, rfl⟩
    · exact ⟨rfl, rfl, rfl⟩
    · split <;> exact ⟨rfl, rfl, rfl⟩
    · exact ⟨rfl, rfl, rfl⟩

/-- What the stop keeps on the way from port to port. -/
def StopFrame (s t : State) : Prop :=
  t = { s with ports := t.ports, slots := t.slots } ∧ TakenBack s t

theorem StopFrame.trans {r : State} (h : StopFrame r s) (g : StopFrame s t) : StopFrame r t := by
  refine ⟨?_, h.2.trans g.2⟩
  rw [g.1, h.1]

theorem stopFrame_stopPort (s : State) (p : PortId) : StopFrame s (stopPort s p) :=
  ⟨stopPort_eq s p, fun k => by rw [stopPort_txn]; exact takenBack_takeQuiet p s k⟩

end Sys2Proof.Machine

namespace Sys2Proof.Proofs

open Sys2Proof.Machine

/-- Settles O14: each port takes the stop as it stands, and no port touches another. -/
theorem stopLeavesTheBuses : Obligations.StopLeavesTheBuses := by
  intro s out
  rw [exec_controllerStop out]
  refine ⟨fun stops => ⟨_, rfl, ?_⟩, fun rests => by rw [stopController_of_rests rests]⟩
  rw [stopController_of_stops stops]
  generalize hv : ({ s with
    link := { s.link with ctrl := .stopping, en := false },
    trig := { s.trig with prescaler := none, tickDue := [] } } : State) = v
  have port : ∀ p, v.port p = s.port p := fun p => by rw [← hv]; rfl
  have txn : ∀ k, v.txn k = s.txn k := fun k => by rw [← hv]; rfl
  obtain ⟨frame, -, each⟩ := foldl_ports (R := StopFrame) (fun _ => ⟨rfl, .same⟩) StopFrame.trans
    stopFrame_stopPort stopPort_port_of_ne allPorts nodup_allPorts v
  refine ⟨by rw [frame.1, ← hv], fun p => ?_⟩
  obtain ⟨u, before, same, after, result⟩ := each p (mem_allPorts p)
  obtain ⟨transfer, recovery, state, phase, lines, ends, cfg, stats, list⟩ :=
    (s.port p).stopping_facts u.timebase (u.timeoutsReached p)
  rw [result, stopPort_port, same, port]
  refine ⟨transfer, recovery, state, phase, lines, fun h => ⟨ends h, fun k x served held => ?_⟩,
    cfg, stats, list⟩
  have now : (stopPort u p).txn k = (s.txn k).map fun y => { y with state := .ready } := by
    rw [stopPort_txn, takeQuiet_txn_of_ends u (by rw [same, port]; exact h) (by rw [same, port, served])]
    rcases before.2 k with e | e
    · rw [e, txn]
    · rw [e, txn]; simp [Function.comp_def]
  rw [after.2.ready now, held]
  rfl

end Sys2Proof.Proofs
end

section
/-! SUPPORT. The target unit's operations: what they leave alone outside their port (`TargetSide`), and what
they make of the port, each said once as a change of the port: a held update, the end of a reply, of a
message and of a transfer, a record offered, and the entry to OFF. -/

namespace Sys2Proof.Machine

variable {r s t : State} {p q : PortId}

/-! ### Accesses issued -/

/-- Between `s` and `t` no access has ended, and those issued fail when bus mastering is disabled (R185). -/
def Issues (s t : State) : Prop :=
  ∃ l, t.accesses = s.accesses ++ l ∧ ∀ a ∈ l, a.doomed = !s.link.busMaster

theorem Issues.of_eq (h : t.accesses = s.accesses) : Issues s t :=
  ⟨[], by rw [h, List.append_nil], fun _ ha => by simp at ha⟩

theorem Issues.same : Issues s s := .of_eq rfl

theorem Issues.one {a : Access} (h : t.accesses = s.accesses ++ [a]) (doomed : a.doomed = !s.link.busMaster) :
    Issues s t :=
  ⟨[a], h, fun x hx => by rw [List.mem_singleton.mp hx]; exact doomed⟩

theorem Issues.trans (h : Issues r s) (g : Issues s t) (link : s.link.busMaster = r.link.busMaster) :
    Issues r t := by
  obtain ⟨l, e, doomed⟩ := h
  obtain ⟨m, e', doomed'⟩ := g
  refine ⟨l ++ m, by rw [e', e, List.append_assoc], fun a ha => ?_⟩
  rcases List.mem_append.mp ha with ha | ha
  · exact doomed a ha
  · rw [← link]; exact doomed' a ha

theorem Issues.mem (h : Issues s t) {a : Access} (ha : a ∈ s.accesses) : a ∈ t.accesses := by
  obtain ⟨l, e, -⟩ := h
  rw [e]
  exact List.mem_append_left _ ha

/-! ### What the release of a slot leaves alone -/

/-- Between `s` and `t` slots were released and holds placed: of the rest only the command in hand may have
gone on, and accesses were issued. -/
structure Released (s t : State) : Prop where
  eq : t = { s with
    accesses := t.accesses, mgmt := { s.mgmt with command := t.mgmt.command }, rqs := t.rqs,
    slots := t.slots, fetch := { s.fetch with placed := t.fetch.placed }, ports := t.ports }
  accesses : Issues s t

theorem Released.same : Released s s := ⟨rfl, .same⟩
theorem Released.trans (h : Released r s) (g : Released s t) : Released r t where
  eq := by rw [g.eq, h.eq]
  accesses := h.accesses.trans g.accesses (by rw [h.eq])

theorem released_examineHold (q : RqId) (s : State) : Released s (examineHold q s) := by
  unfold examineHold
  split
  · split
    · exact ⟨rfl, .of_eq rfl⟩
    · exact .same
  · exact .same

theorem released_setCommandPhase (x : CmdPhase) (s : State) : Released s (setCommandPhase x s) :=
  ⟨rfl, .of_eq rfl⟩

theorem released_writeRqStatus (q : RqId) (c : Bool) (s : State) : Released s (writeRqStatus q c s) :=
  ⟨rfl, .one rfl rfl⟩

theorem released_modRq (q : RqId) (f : RqCtx → RqCtx) (s : State) : Released s (s.modRq q f) :=
  ⟨rfl, .of_eq rfl⟩

theorem released_deletionEnd (q : RqId) (s : State) : Released s (deletionEnd q s) := by
  unfold deletionEnd
  split
  · dsimp only
    refine Released.trans ?_ (released_modRq _ _ _)
    split
    · exact ((released_modRq _ _ _).trans (released_writeRqStatus _ _ _)).trans (released_setCommandPhase _ _)
    · exact (released_modRq _ _ _).trans (released_writeRqStatus _ _ _)
  · exact .same

theorem released_setSlot (k : SlotId) (x : Slot) (s : State) : Released s (s.setSlot k x) :=
  ⟨rfl, .of_eq rfl⟩

theorem released_finalize (k : SlotId) (s : State) : Released s (finalize k s) := by
  unfold finalize
  split
  · split
    · exact (((released_setSlot _ _ _).trans (released_modRq _ _ _)).trans (released_examineHold _ _)).trans
        (released_deletionEnd _ _)
    · exact released_setSlot _ _ _
  · exact .same

theorem released_discard (e : HoldEntry) (s : State) : Released s (discard e s) := by
  unfold discard
  split
  · exact released_finalize _ _
  · exact .same

/-! ### What joins the holding list -/

/-- Between `s` and `t` records have joined the holding list, each for a RUNNING queue, and the last of
them found room (R111). -/
def Joins (s t : State) : Prop :=
  ∃ l, t.comp.holding = s.comp.holding ++ l ∧ (∀ e ∈ l, (s.cq e.cq).state = .running) ∧
    (l ≠ [] → t.comp.holding.length ≤ Config.holdingCapacity)

theorem Joins.of_eq (h : t.comp.holding = s.comp.holding) : Joins s t :=
  ⟨[], by rw [h, List.append_nil], fun _ he => by simp at he, fun c => absurd rfl c⟩

theorem Joins.same : Joins s s := .of_eq rfl

theorem Joins.trans (h : Joins r s) (g : Joins s t) (cq : ∀ n, s.cq n = r.cq n) : Joins r t := by
  obtain ⟨l, hl, running, room⟩ := h
  obtain ⟨m, hm, running', room'⟩ := g
  refine ⟨l ++ m, by rw [hm, hl, List.append_assoc], fun e he => ?_, fun some => ?_⟩
  · rcases List.mem_append.mp he with he | he
    · exact running e he
    · rw [← cq]; exact running' e he
  · by_cases last : m = []
    · rw [last, List.append_nil] at some hm
      rw [hm]
      exact room some
    · exact room' last

/-- A full list is left as it is. -/
theorem Joins.full (h : Joins s t) (full : s.comp.holding.length = Config.holdingCapacity) :
    t.comp.holding = s.comp.holding := by
  obtain ⟨l, hl, -, room⟩ := h
  by_cases none : l = []
  · rw [hl, none, List.append_nil]
  · have fits := room none
    rw [hl, List.length_append, full] at fits
    exact absurd (List.length_eq_zero_iff.mp (by omega)) none

/-- No record of a queue that is not RUNNING joins. -/
theorem Joins.without (h : Joins s t) {n : CqId} (stopped : (s.cq n).state ≠ .running)
    (none : ∀ e ∈ s.comp.holding, e.cq ≠ n) : ∀ e ∈ t.comp.holding, e.cq ≠ n := by
  obtain ⟨l, hl, running, -⟩ := h
  intro e he isN
  rw [hl] at he
  rcases List.mem_append.mp he with he | he
  · exact none e he isN
  · exact stopped (by rw [← isN]; exact running e he)

/-! ### What the target unit leaves alone -/

/-- Between `s` and `t` only port `p`, the management unit, the accesses in flight and the holding list have
changed; no latch has been cleared and no access has ended. -/
structure TargetSide (p : PortId) (s t : State) : Prop where
  eq : t = { s with
    ports := t.ports, mgmt := t.mgmt, accesses := t.accesses,
    comp := { s.comp with holding := t.comp.holding } }
  other : ∀ q, q ≠ p → t.port q = s.port q
  mgmt : s.mgmt.command = none → t.mgmt = { s.mgmt with latches := t.mgmt.latches }
  latches : ∀ x ∈ s.mgmt.latches, x ∈ t.mgmt.latches
  accesses : Issues s t
  joins : Joins s t

theorem TargetSide.same : TargetSide p s s :=
  ⟨rfl, fun _ _ => rfl, fun _ => rfl, fun _ => id, .same, .same⟩

theorem TargetSide.cq (h : TargetSide p s t) (n : CqId) : t.cq n = s.cq n := by rw [h.eq]; rfl

theorem TargetSide.trans (h : TargetSide p r s) (g : TargetSide p s t) : TargetSide p r t where
  eq := by rw [g.eq, h.eq]
  other q hq := (g.other q hq).trans (h.other q hq)
  mgmt c := by
    have e := h.mgmt c
    rw [g.mgmt (by rw [e]; exact c), e]
  latches x hx := g.latches x (h.latches x hx)
  accesses := h.accesses.trans g.accesses (by rw [h.eq])
  joins := h.joins.trans g.joins h.cq

theorem side_modPort {f : Port → Port} (h : TargetSide p r s) : TargetSide p r (s.modPort p f) :=
  h.trans ⟨rfl, fun q hq => by rw [port_modPort, if_neg hq.symm], fun _ => rfl, fun _ => id, .of_eq rfl,
    .same⟩
theorem side_modTarget {f : Target → Target} (h : TargetSide p r s) : TargetSide p r (s.modTarget p f) :=
  side_modPort h
theorem side_modStats {f : Stats → Stats} (h : TargetSide p r s) : TargetSide p r (s.modStats p f) :=
  side_modPort h
theorem side_touch (h : TargetSide p r s) : TargetSide p r (touch p s) := side_modPort h
theorem side_releaseLines (h : TargetSide p r s) : TargetSide p r (releaseLines p s) := side_modPort h

theorem setLatch_subset (l : Latch) (b : Byte) : ∀ x ∈ s.mgmt.latches, x ∈ (setLatch l b s).mgmt.latches := by
  intro x hx
  unfold setLatch
  split
  · exact hx
  · simp [hx]

theorem side_setLatch {l : Latch} {b : Byte} (h : TargetSide p r s) : TargetSide p r (setLatch l b s) :=
  h.trans ⟨by rw [setLatch_eq], fun q _ => by rw [setLatch_eq]; rfl, fun _ => setLatch_keeps l b,
    setLatch_subset l b, .of_eq (by rw [setLatch_eq]), .of_eq (by rw [setLatch_eq])⟩

theorem commandAt_eq_false {ph : CmdPhase} (h : s.mgmt.command = none) : s.commandAt ph = false := by
  simp [State.commandAt, h]

theorem side_completeIf {ph : CmdPhase} {st : Status} {a : Word} (h : TargetSide p r s) :
    TargetSide p r (completeIf ph st a s) :=
  h.trans ⟨by rw [completeIf_eq], fun q _ => completeIf_port ..,
    fun c => by rw [completeIf_left (commandAt_eq_false c)],
    fun x hx => by rw [completeIf_latches]; exact hx, .of_eq (by rw [completeIf_eq]),
    .of_eq (by rw [completeIf_eq])⟩

theorem side_issue {kind : AccessKind} {x : Xfer} {c : Bool} (h : TargetSide p r s) :
    TargetSide p r (issue kind x c s) :=
  h.trans ⟨rfl, fun _ _ => rfl, fun _ => rfl, fun _ => id, .one rfl rfl, .same⟩

/-- The offer of a record that keeps no slot adds it to the holding list, or does nothing (R111). -/
theorem tryOffer_of_no_slot {e : HoldEntry} (he : e.slot = none) (h : tryOffer e s = some t) :
    t = { s with comp := { s.comp with holding := t.comp.holding } } := by
  rcases tryOffer_cases (s := s) e with ⟨-, -, o⟩ | ⟨-, o⟩ | ⟨-, -, o⟩ <;> rw [o] at h <;> cases h
  · rfl
  · simp [discard, he]

/-- What an offer adds to the holding list is for a RUNNING queue and finds room (R111). -/
theorem joins_tryOffer {e : HoldEntry} (h : tryOffer e s = some t) : Joins s t := by
  rcases tryOffer_cases (s := s) e with ⟨running, room, o⟩ | ⟨-, o⟩ | ⟨-, -, o⟩ <;> rw [o] at h <;> cases h
  · refine ⟨[e], rfl, fun x hx => by rw [List.mem_singleton.mp hx]; exact running, fun _ => ?_⟩
    rw [List.length_append]
    exact room
  · exact .of_eq (by rw [(released_discard e s).eq])

theorem side_tryOffer {x : ReceiveRecord} (h : TargetSide p r s) (o : tryOffer x.entry s = some t) :
    TargetSide p r t := by
  have e := tryOffer_of_no_slot rfl o
  exact h.trans ⟨by rw [e], fun q _ => by rw [e]; rfl, fun _ => by rw [e], fun x hx => by rw [e]; exact hx,
    .of_eq (by rw [e]), joins_tryOffer o⟩

theorem side_startMessage {who : Addressed} {a : BitVec 7} {b : RxBuffer} (h : TargetSide p r s) :
    TargetSide p r (startMessage p who a b s) := side_touch (side_modPort h)
theorem side_refuse (h : TargetSide p r s) : TargetSide p r (refuse p s) := side_touch (side_modPort h)
theorem side_refuseMessage (h : TargetSide p r s) : TargetSide p r (refuseMessage p s) := by
  unfold refuseMessage
  split
  · exact side_refuse (side_modStats h)
  · exact side_setLatch (side_refuse (side_modStats h))
theorem side_decideMessage {who : Addressed} {a : BitVec 7} {x : Word} (h : TargetSide p r s) :
    TargetSide p r (decideMessage p who a x s) := by
  unfold decideMessage
  split
  · exact side_startMessage h
  · split
    · exact side_modPort h
    · exact side_refuseMessage h
theorem side_decideAgain (h : TargetSide p r s) : TargetSide p r (decideAgain p s) := by
  unfold decideAgain
  split
  · exact side_decideMessage h
  · exact h
theorem side_targetAccepted {m : Bool} (h : TargetSide p r s) : TargetSide p r (targetAccepted p m s) := by
  unfold targetAccepted
  dsimp only
  split
  · exact side_decideAgain (side_modStats (side_modTarget (side_modTarget h)))
  · exact side_modTarget h
theorem side_offerTargetN {n : Nat} (h : TargetSide p r s) : TargetSide p r (offerTargetN p n s) := by
  induction n generalizing s with
  | zero => exact h
  | succ n ih =>
    unfold offerTargetN
    split
    · exact h
    · split
      next o => exact ih (side_targetAccepted (side_tryOffer h o))
      · exact h
theorem side_pushRecord {x : TargetRecord} (h : TargetSide p r s) : TargetSide p r (pushRecord p x s) := by
  unfold pushRecord
  dsimp only
  split
  · exact side_offerTargetN (side_modTarget h)
  · exact side_modTarget h
theorem side_giveBack {b : RxBuffer} (h : TargetSide p r s) : TargetSide p r (giveBack p b s) :=
  side_pushRecord h
theorem side_drainEnded {ok : Bool} (h : TargetSide p r s) : TargetSide p r (drainEnded p ok s) := by
  unfold drainEnded
  split
  · exact side_decideAgain (side_pushRecord (side_modTarget h))
  · exact h
theorem side_endMessage {a b : Bool} (h : TargetSide p r s) : TargetSide p r (endMessage p a b s) := by
  unfold endMessage
  split
  · dsimp only
    split
    · exact side_drainEnded (side_modTarget h)
    · exact side_issue (side_modTarget h)
  · exact h
theorem side_applyImage {o : OwnId} {n : Nat} {b : List Byte} (h : TargetSide p r s) :
    TargetSide p r (applyImage p o n b s) := side_modTarget h
theorem side_applyReply {o : OwnId} {b : List Byte} (h : TargetSide p r s) :
    TargetSide p r (applyReply p o b s) := side_modTarget h
theorem side_applyHeld (h : TargetSide p r s) : TargetSide p r (applyHeld p s) := by
  unfold applyHeld
  split
  · exact side_completeIf (side_applyImage (side_modTarget h))
  · exact side_completeIf (side_applyReply (side_modTarget h))
  · exact h
theorem side_endReply {o : OwnId} {n : Nat} (h : TargetSide p r s) : TargetSide p r (endReply p o n s) := by
  unfold endReply
  split
  · exact side_setLatch (side_modStats (side_modTarget h))
  · exact side_modTarget h
theorem side_endTransfer {a b : Bool} (h : TargetSide p r s) : TargetSide p r (endTransfer p a b s) := by
  have g := side_releaseLines (side_modTarget (f := fun T => { T with transfer := .none }) h)
  unfold endTransfer
  dsimp only
  split
  · exact side_applyHeld g
  · exact side_applyHeld (side_endReply g)
  · exact side_endMessage g
  · exact g
theorem side_enterOff (h : TargetSide p r s) : TargetSide p r (enterOff p s) := by
  have g := side_modPort (f := Port.switchedOff) h
  unfold enterOff
  dsimp only
  split
  · exact side_completeIf (side_giveBack g)
  · exact side_completeIf g

/-! ### What they make of the port -/

/-- What the update held makes of the port when it is applied (R152, R154). -/
def Port.heldApplied (P : Port) : Port :=
  match P.tgt.held with
  | some (.image o offset bytes) =>
    { P with tgt := { P.tgt with
      held := none, images := upd P.tgt.images o fun i => overlay i offset bytes } }
  | some (.reply o bytes) =>
    { P with tgt := { P.tgt with
      held := none, replies := upd P.tgt.replies o fun _ => { state := .loaded, bytes := bytes } } }
  | none => P

theorem applyHeld_port (p : PortId) (s : State) : (applyHeld p s).port p = (s.port p).heldApplied := by
  unfold applyHeld Port.heldApplied
  split
  next e => simp [completeIf_port, applyImage, e]
  next e => simp [completeIf_port, applyReply, e]
  next e => simp [e]

/-- What the end of a reply read makes of the port (R153). -/
def Port.replyEnded (o : OwnId) (pos : Nat) (P : Port) : Port :=
  if (P.tgt.replies.get o).bytes.length ≤ pos then
    { P with
      tgt := { P.tgt with replies := upd P.tgt.replies o fun _ => Reply.reset },
      stats := { P.stats with repliesTaken := P.stats.repliesTaken + 1 } }
  else
    { P with tgt := { P.tgt with replies := upd P.tgt.replies o fun x => { x with state := .loaded } } }

theorem endReply_port (p : PortId) (o : OwnId) (pos : Nat) (s : State) :
    (endReply p o pos s).port p = (s.port p).replyEnded o pos := by
  unfold endReply Port.replyEnded
  split <;> simp

/-- A decision that does not wait is not taken again. -/
theorem decideAgain_of_not (h : (s.port p).tgt.transfer.isDeciding = false) : decideAgain p s = s := by
  unfold decideAgain
  split
  next e => rw [e] at h; cases h
  · rfl

/-- Between `P` and `Q` only records have been handed over, with the message's staging and count. -/
def Port.Filed (P Q : Port) : Prop :=
  Q = { P with
    stats := Q.stats, tgt := { P.tgt with records := Q.tgt.records, staging := Q.tgt.staging } }

theorem Port.Filed.trans {P Q R : Port} (h : P.Filed Q) (g : Q.Filed R) : P.Filed R := by
  unfold Port.Filed at *
  rw [g, h]

theorem tryOffer_port {x : ReceiveRecord} (o : tryOffer x.entry s = some t) (q : PortId) :
    t.port q = s.port q := by rw [tryOffer_of_no_slot rfl o]; rfl

theorem targetAccepted_filed {m : Bool} (h : (s.port p).tgt.transfer.isDeciding = false) :
    (s.port p).Filed ((targetAccepted p m s).port p) := by
  unfold targetAccepted
  dsimp only
  split
  · rw [decideAgain_of_not (by simpa using h)]
    simp [Port.Filed]
  · simp [Port.Filed]

theorem Port.Filed.transfer {P Q : Port} (h : P.Filed Q) : Q.tgt.transfer = P.tgt.transfer := by rw [h]

theorem offerTargetN_filed {n : Nat} (h : (s.port p).tgt.transfer.isDeciding = false) :
    (s.port p).Filed ((offerTargetN p n s).port p) := by
  induction n generalizing s with
  | zero => exact rfl
  | succ n ih =>
    unfold offerTargetN
    split
    · exact rfl
    · split
      next x _ _ _ u o =>
        have same := tryOffer_port o p
        have taken := targetAccepted_filed (m := x.message) (s := u) (p := p) (by rw [same]; exact h)
        rw [same] at taken
        exact taken.trans (ih (by rw [taken.transfer]; exact h))
      · exact rfl

theorem pushRecord_filed {x : TargetRecord} (h : (s.port p).tgt.transfer.isDeciding = false) :
    (s.port p).Filed ((pushRecord p x s).port p) := by
  have g : (s.port p).Filed ((s.modTarget p fun T => { T with records := T.records ++ [x] }).port p) := by
    simp [Port.Filed]
  unfold pushRecord
  dsimp only
  split
  · exact g.trans (offerTargetN_filed (by simpa using h))
  · exact g

theorem drainEnded_filed {ok : Bool} (h : (s.port p).tgt.transfer.isDeciding = false) :
    (s.port p).Filed ((drainEnded p ok s).port p) := by
  unfold drainEnded
  split
  next m _ =>
    have g : (s.port p).Filed ((s.modTarget p fun T => { T with staging := .posting }).port p) := by
      simp [Port.Filed]
    have pushed := pushRecord_filed (s := s.modTarget p fun T => { T with staging := .posting }) (p := p)
      (x := { receive := { record := messageRecord p m ok, cq := m.buffer.cq }, message := true })
      (by simpa using h)
    dsimp only
    rw [decideAgain_of_not (by rw [pushed.transfer]; simpa using h)]
    exact g.trans pushed
  · exact rfl

theorem endMessage_filed {a b : Bool} (h : (s.port p).tgt.transfer.isDeciding = false) :
    (s.port p).Filed ((endMessage p a b s).port p) := by
  unfold endMessage
  split
  · dsimp only
    split
    · refine Port.Filed.trans ?_ (drainEnded_filed (by simpa using h))
      simp [Port.Filed]
    · simp [Port.Filed]
  · exact rfl

/-- The message in staging goes to DRAINING with its one write (R157, R158). -/
theorem endMessage_filling {a b : Bool} {m : Message} (h : (s.port p).tgt.staging = .filling m)
    (hm : m.bytes ≠ []) :
    endMessage p a b s = issue (.targetDrain p) (.write [(m.buffer.addr, m.bytes)]) false
      (s.modTarget p fun T => { T with
        staging := .draining { m with endTime := s.timebase, endedByRestart := a, abandoned := b } }) := by
  unfold endMessage
  rw [h]
  dsimp only
  rw [if_neg (by simpa using hm)]

/-- The port a transfer has left, before its role's end effects (R149). -/
def Port.leftTransfer (P : Port) : Port :=
  { P with sclDriven := false, sdaDriven := false, tgt := { P.tgt with transfer := .none } }

/-- The end of the transfer, by its role. -/
theorem endTransfer_eq (p : PortId) (a b : Bool) (s : State) :
    endTransfer p a b s =
      match (s.port p).tgt.transfer with
      | .imageRead _ _ => applyHeld p (s.modPort p Port.leftTransfer)
      | .replyRead o pos _ => applyHeld p (endReply p o pos (s.modPort p Port.leftTransfer))
      | .mailboxWrite => endMessage p a b (s.modPort p Port.leftTransfer)
      | _ => s.modPort p Port.leftTransfer := by
  have left : releaseLines p (s.modTarget p fun T => { T with transfer := .none }) =
      s.modPort p Port.leftTransfer := by
    rw [releaseLines, modTarget_eq, modPort_modPort]
    rfl
  unfold endTransfer
  cases (s.port p).tgt.transfer <;> simp only [left]

/-- Between `P` and `Q` a transfer has ended: the lines are released, and the target unit's switches are as
they were. -/
def Port.Ended (P Q : Port) : Prop :=
  Q = { P with
    stats := Q.stats, sclDriven := false, sdaDriven := false,
    tgt := { Q.tgt with
      transfer := .none, atHand := P.tgt.atHand, disableTold := P.tgt.disableTold } }

theorem Port.Ended.of_filed {P Q : Port} (h : P.leftTransfer.Filed Q) : P.Ended Q := by
  unfold Port.Ended
  rw [h]
  rfl

theorem Port.ended_heldApplied {P Q : Port} (h : P.Ended Q) : P.Ended Q.heldApplied := by
  unfold Port.heldApplied
  split <;> (unfold Port.Ended at *; rw [h])

theorem Port.ended_replyEnded {P : Port} (o : OwnId) (n : Nat) : P.Ended (P.leftTransfer.replyEnded o n) := by
  unfold Port.replyEnded
  split <;> rfl

theorem endTransfer_ended (p : PortId) (a b : Bool) (s : State) :
    (s.port p).Ended ((endTransfer p a b s).port p) := by
  rw [endTransfer_eq]
  split
  · rw [applyHeld_port, port_modPort, if_pos rfl]
    exact Port.ended_heldApplied rfl
  · rw [applyHeld_port, endReply_port, port_modPort, if_pos rfl]
    exact Port.ended_heldApplied (Port.ended_replyEnded _ _)
  · refine .of_filed ?_
    have left : (s.modPort p Port.leftTransfer).port p = (s.port p).leftTransfer := by simp
    rw [← left]
    exact endMessage_filed (by rw [left]; rfl)
  · rw [port_modPort, if_pos rfl]
    rfl

/-! ### The entry to OFF (R94) -/

theorem giveBack_filed {b : RxBuffer} (h : (s.port p).tgt.transfer.isDeciding = false) :
    (s.port p).Filed ((giveBack p b s).port p) := pushRecord_filed h

theorem enterOff_filed (p : PortId) (s : State) :
    (s.port p).switchedOff.Filed ((enterOff p s).port p) := by
  have off : (s.modPort p Port.switchedOff).port p = (s.port p).switchedOff := by simp
  unfold enterOff
  dsimp only
  rw [completeIf_port, ← off]
  split
  · exact giveBack_filed (by rw [off]; rfl)
  · exact rfl

/-- A record that is the only one of its target unit is offered at once (R158, R164). -/
theorem pushRecord_of_empty {x : TargetRecord} (h : (s.port p).tgt.records = []) :
    pushRecord p x s =
      let u := s.modTarget p fun T => { T with records := [x] }
      match tryOffer x.receive.entry u with
      | some v => targetAccepted p x.message v
      | none => u := by
  have one : (s.modTarget p fun T => { T with records := T.records ++ [x] }) =
      s.modTarget p fun T => { T with records := [x] } := by
    refine modPort_congr p _ _ ?_
    simp [h]
  have records : ((s.modTarget p fun T => { T with records := [x] }).port p).tgt.records = [x] := by simp
  unfold pushRecord
  dsimp only
  rw [h, one]
  simp only [List.isEmpty_nil, if_true, offerTarget, records, List.length_singleton, offerTargetN] <;> rfl

/-- A buffer given back by a target unit with no record goes to the holding list, when its queue is RUNNING
and the list has room, and the unit holds no record again (R164). -/
theorem giveBack_eq {b : RxBuffer} (h : (s.port p).tgt.records = [])
    (running : (s.cq b.cq).state = .running) (room : s.comp.holding.length < Config.holdingCapacity) :
    giveBack p b s = { s with comp := { s.comp with
      holding := s.comp.holding ++ [⟨unusedRecord p b s.timebase, b.cq, false, none⟩] } } := by
  have back : ∀ (f g : Target → Target), (g (f (s.port p).tgt)) = (s.port p).tgt →
      (s.modTarget p f).modTarget p g = s := by
    intro f g e
    have self : (s.modTarget p f).modTarget p g = s.modPort p id := by
      rw [modTarget_eq, modTarget_eq, modPort_modPort]
      exact modPort_congr p _ _ (by dsimp only; rw [e]; rfl)
    rw [self]
    unfold State.modPort upd
    simp [Vector.get]
  have offered : ∀ u : State, u.cqs = s.cqs → u.comp = s.comp → ∀ e : HoldEntry, e.cq = b.cq →
      tryOffer e u = some { u with comp := { u.comp with holding := u.comp.holding ++ [e] } } := by
    intro u hc hh e he
    unfold tryOffer
    have running' : (u.cq e.cq).state = .running := by unfold State.cq; rw [hc, he]; exact running
    rw [if_pos running', hh, if_pos room]
  unfold giveBack
  rw [pushRecord_of_empty h]
  have accepted := offered (s.modTarget p fun T => { T with
    records := [⟨⟨unusedRecord p b s.timebase, b.cq⟩, false⟩] }) rfl rfl
    ⟨unusedRecord p b s.timebase, b.cq, false, none⟩ rfl
  dsimp only [ReceiveRecord.entry]
  rw [accepted]
  dsimp only [targetAccepted]
  have restored := back (fun T => { T with
      records := [⟨⟨unusedRecord p b s.timebase, b.cq⟩, false⟩] })
    (fun T => { T with records := T.records.tail }) (by simp only [List.tail_cons]; rw [← h])
  exact congrArg (fun v : State => { v with comp := { v.comp with holding := s.comp.holding ++
    [(⟨unusedRecord p b s.timebase, b.cq, false, none⟩ : HoldEntry)] } }) restored

end Sys2Proof.Machine
end

section
/-! SUPPORT. The entry to HALTED (R194): what it does to the rest of the part (`haltTaken`), each port on its
own (`PortHalted`), and what each port's part leaves alone (`HaltFrame`). -/

namespace Sys2Proof.Machine

variable {r s t u w : State} {p q : PortId} {k : SlotId}

/-! ### What the entry to HALTED leaves alone on the way from port to port -/

/-- Between `s` and `t` ports have taken a halt: transactions are kept or READY again, and of the rest only
latches, accesses in flight and records are added, as long as no command is in hand. -/
structure HaltFrame (s t : State) : Prop where
  eq : t = { s with
    ports := t.ports, slots := t.slots, mgmt := t.mgmt, accesses := t.accesses,
    comp := { s.comp with holding := t.comp.holding } }
  taken : TakenBack s t
  mgmt : s.mgmt.command = none → t.mgmt = { s.mgmt with latches := t.mgmt.latches }
  latches : ∀ x ∈ s.mgmt.latches, x ∈ t.mgmt.latches
  accesses : Issues s t

theorem HaltFrame.same : HaltFrame s s := ⟨rfl, .same, fun _ => rfl, fun _ => id, .same⟩

theorem HaltFrame.trans (h : HaltFrame r s) (g : HaltFrame s t) : HaltFrame r t where
  eq := by rw [g.eq, h.eq]
  taken := h.taken.trans g.taken
  mgmt c := by
    have e := h.mgmt c
    rw [g.mgmt (by rw [e]; exact c), e]
  latches x hx := g.latches x (h.latches x hx)
  accesses := h.accesses.trans g.accesses (by rw [h.eq])

theorem TargetSide.txn (h : TargetSide p s t) (k : SlotId) : t.txn k = s.txn k := by rw [h.eq]; rfl

theorem HaltFrame.of_side (h : TargetSide p s t) : HaltFrame s t :=
  ⟨by rw [h.eq], fun k => .inl (h.txn k), h.mgmt, h.latches, h.accesses⟩

theorem haltFrame_takeQuiet (p : PortId) (s : State) : HaltFrame s (takeQuiet p s) :=
  ⟨by rw [takeQuiet_eq], takenBack_takeQuiet p s, fun _ => by rw [takeQuiet_eq],
    fun x hx => by rw [takeQuiet_eq]; exact hx, .of_eq (by rw [takeQuiet_eq])⟩

/-! ### A port at the entry to HALTED, step by step -/

/-- The engine's part: it is made quiet, and the lines are released when no attempt goes on (R85). -/
def haltEngine (p : PortId) (s : State) : State :=
  let s := takeQuiet p s
  if (s.port p).eng.phase = .none then releaseLines p s else s

/-- The target unit's part: a transfer in progress ends (R165). -/
def haltTransfer (p : PortId) (s : State) : State :=
  if (s.port p).tgt.transfer = .none then s else endTransfer p false true s

/-- The monitor's part: the port leaves its recovery, and TARGET (R102, R165). -/
def Port.haltLeft (P : Port) : Port :=
  { P with recovery := .none, state := if P.state = .target then .observing else P.state }

theorem haltPort_eq (s : State) (p : PortId) :
    haltPort s p =
      let v := (haltTransfer p (haltEngine p s)).modPort p Port.haltLeft
      if (v.port p).tgt.disableTold then enterOff p v else v := by
  unfold haltPort
  dsimp only [leaveTarget]
  rw [modPort_modPort]
  rfl

/-- What the engine's part makes of the port. -/
def Port.engineHalted (now : Word) (reached : List FaultReason) (P : Port) : Port :=
  let Q := P.quieted now reached
  { Q with
    sclDriven := if Q.eng.phase = .none then false else Q.sclDriven
    sdaDriven := if Q.eng.phase = .none then false else Q.sdaDriven }

theorem haltEngine_port (p : PortId) (s : State) :
    (haltEngine p s).port p = (s.port p).engineHalted s.timebase (s.timeoutsReached p) := by
  unfold haltEngine Port.engineHalted
  dsimp only [releaseLines]
  rw [takeQuiet_port]
  split <;> simp [takeQuiet_port]

theorem haltEngine_txn (p : PortId) (k : SlotId) (s : State) : (haltEngine p s).txn k = (takeQuiet p s).txn k := by
  unfold haltEngine
  dsimp only
  split <;> rfl

theorem haltFrame_haltEngine (p : PortId) (s : State) : HaltFrame s (haltEngine p s) := by
  unfold haltEngine
  dsimp only
  split
  · exact (haltFrame_takeQuiet p s).trans (.of_side (side_releaseLines .same))
  · exact haltFrame_takeQuiet p s

theorem haltEngine_port_of_ne (s : State) (h : q ≠ p) : (haltEngine p s).port q = s.port q := by
  unfold haltEngine
  dsimp only [releaseLines]
  split
  · rw [port_modPort, if_neg h.symm, takeQuiet_port_of_ne s h]
  · exact takeQuiet_port_of_ne s h

theorem side_haltTransfer (h : TargetSide p r s) : TargetSide p r (haltTransfer p s) := by
  unfold haltTransfer
  split
  · exact h
  · exact side_endTransfer h

/-- What follows the engine's part touches its own port alone. -/
theorem side_haltPort (s : State) (p : PortId) : TargetSide p (haltEngine p s) (haltPort s p) := by
  have left := side_modPort (f := Port.haltLeft) (side_haltTransfer (TargetSide.same (p := p) (s := haltEngine p s)))
  rw [haltPort_eq]
  dsimp only
  split
  · exact side_enterOff left
  · exact left

theorem haltFrame_haltPort (s : State) (p : PortId) : HaltFrame s (haltPort s p) :=
  (haltFrame_haltEngine p s).trans (.of_side (side_haltPort s p))

theorem haltPort_port_of_ne (s : State) (p q : PortId) (h : q ≠ p) : (haltPort s p).port q = s.port q :=
  ((side_haltPort s p).other q h).trans (haltEngine_port_of_ne s h)

theorem haltPort_txn (s : State) (p : PortId) (k : SlotId) : (haltPort s p).txn k = (takeQuiet p s).txn k :=
  ((side_haltPort s p).txn k).trans (haltEngine_txn p k s)

/-! ### The port afterwards -/

/-- What the engine's part keeps of a port, and what it makes of the engine (R85). -/
theorem Port.engineHalted_facts (now : Word) (x : List FaultReason) (P : Port) :
    let Q := P.engineHalted now x
    let E := P.eng
    Q.cfg = P.cfg ∧ Q.list = P.list ∧ Q.inService = P.inService ∧ Q.tgt = P.tgt ∧ Q.stats = P.stats ∧
      Q.busFree = P.busFree ∧ Q.inStep = P.inStep ∧ Q.disablePending = P.disablePending ∧
      Q.state = (if E.phase = .opening ∧ E.restart = false then .idle else P.state) ∧
      (E.phase = .none → Q.eng = E ∧ Q.sclDriven = false ∧ Q.sdaDriven = false) ∧
      (E.endsAtOnce → Q.eng = Engine.reset ∧ Q.sclDriven = false ∧ Q.sdaDriven = false) ∧
      (E.phase = .opening → E.restart = true → Q.eng = { E with
        phase := .closing, segment := E.segment + 1, restart := false, quiet := true }) ∧
      (E.phase ∉ [Phase.none, .between, .opening] →
        Q.eng = { E with quiet := true } ∧ Q.sclDriven = P.sclDriven ∧ Q.sdaDriven = P.sdaDriven) := by
  cases phase : P.eng.phase
  case opening =>
    cases restart : P.eng.restart <;>
      simp [Port.engineHalted, Port.quieted, phase, restart, Engine.endsAtOnce, Engine.reset]
  all_goals simp [Port.engineHalted, Port.quieted, phase, Engine.endsAtOnce, Engine.reset]

/-- What the end of the target transfer in progress makes of the port, by its role; a message is filed
by its own rule (`endMessage_filling`). -/
theorem haltTransfer_port (s : State) (p : PortId) :
    let P := s.port p
    let Q := (haltTransfer p s).port p
    (P.tgt.transfer = .none → haltTransfer p s = s) ∧
    (∀ o d, P.tgt.transfer = .imageRead o d → Q = P.leftTransfer.heldApplied) ∧
    (∀ o n d, P.tgt.transfer = .replyRead o n d → Q = (P.leftTransfer.replyEnded o n).heldApplied) ∧
    (P.tgt.transfer = .mailboxWrite →
      haltTransfer p s = endMessage p false true (s.modPort p Port.leftTransfer)) ∧
    (P.tgt.transfer ≠ .mailboxWrite → (∀ o n d, P.tgt.transfer ≠ .replyRead o n d) →
      Q.stats = P.stats ∧ Q.tgt.staging = P.tgt.staging) := by
  have left : (s.modPort p Port.leftTransfer).port p = (s.port p).leftTransfer := by simp
  unfold haltTransfer
  cases e : (s.port p).tgt.transfer
  case imageRead =>
    have held : (s.port p).leftTransfer.heldApplied.stats = (s.port p).stats ∧
        (s.port p).leftTransfer.heldApplied.tgt.staging = (s.port p).tgt.staging := by
      unfold Port.heldApplied
      split <;> exact ⟨rfl, rfl⟩
    simp [endTransfer_eq, e, applyHeld_port, held]
  case replyRead =>
    simp [endTransfer_eq, e, applyHeld_port, endReply_port]
  all_goals simp [endTransfer_eq, e, Port.leftTransfer]

theorem haltTransfer_ended (s : State) (p : PortId) :
    (s.port p).Ended ((haltTransfer p s).port p) ∨ (s.port p).tgt.transfer = .none ∧ haltTransfer p s = s := by
  unfold haltTransfer
  split
  next e => exact .inr ⟨e, rfl⟩
  · exact .inl (endTransfer_ended p false true s)

/-- The port keeps its switches, its list and its settings through its engine's and its transfer's ends. -/
theorem haltTransfer_keeps (s : State) (p : PortId) :
    let P := s.port p
    let Q := (haltTransfer p s).port p
    Q = { P with stats := Q.stats, sclDriven := Q.sclDriven, sdaDriven := Q.sdaDriven, tgt := Q.tgt } ∧
      Q.tgt.transfer = .none ∧ Q.tgt.atHand = P.tgt.atHand ∧ Q.tgt.disableTold = P.tgt.disableTold ∧
      (P.sclDriven = false → Q.sclDriven = false) ∧ (P.sdaDriven = false → Q.sdaDriven = false) ∧
      (P.tgt.transfer = .none → Q.sclDriven = P.sclDriven ∧ Q.sdaDriven = P.sdaDriven) := by
  rcases haltTransfer_ended s p with ended | ⟨none, same⟩
  · refine ⟨by rw [ended], by rw [ended], by rw [ended], by rw [ended], fun _ => by rw [ended],
      fun _ => by rw [ended], fun none => ?_⟩
    rw [(haltTransfer_port s p).1 none]
    exact ⟨rfl, rfl⟩
  · rw [same]
    exact ⟨rfl, none, rfl, rfl, id, id, fun _ => ⟨rfl, rfl⟩⟩

theorem haltPort_stays (h : (s.port p).tgt.disableTold = false) :
    haltPort s p = (haltTransfer p (haltEngine p s)).modPort p Port.haltLeft := by
  obtain ⟨-, -, -, tgt, -⟩ := (s.port p).engineHalted_facts s.timebase (s.timeoutsReached p)
  obtain ⟨-, -, -, told, -⟩ := haltTransfer_keeps (haltEngine p s) p
  rw [haltEngine_port, tgt, h] at told
  rw [haltPort_eq]
  dsimp only
  rw [if_neg (by simp [Port.haltLeft, told])]

theorem haltPort_told (h : (s.port p).tgt.disableTold = true) :
    haltPort s p = enterOff p ((haltTransfer p (haltEngine p s)).modPort p Port.haltLeft) := by
  obtain ⟨-, -, -, tgt, -⟩ := (s.port p).engineHalted_facts s.timebase (s.timeoutsReached p)
  obtain ⟨-, -, -, told, -⟩ := haltTransfer_keeps (haltEngine p s) p
  rw [haltEngine_port, tgt, h] at told
  rw [haltPort_eq]
  dsimp only
  rw [if_pos (by simp [Port.haltLeft, told])]

/-- A reply read to its end is latched (R153). -/
theorem haltTransfer_replyTaken {o : OwnId} {n : Nat} {d : Bool} (h : (s.port p).tgt.transfer = .replyRead o n d)
    (past : ((s.port p).tgt.replies.get o).bytes.length ≤ n) :
    ∃ x ∈ (haltTransfer p s).mgmt.latches, x.latch = .replyTaken p o := by
  have past' : (((s.modPort p Port.leftTransfer).port p).tgt.replies.get o).bytes.length ≤ n := by
    simpa [Port.leftTransfer] using past
  unfold haltTransfer
  rw [if_neg (by rw [h]; simp), endTransfer_eq, h]
  dsimp only
  unfold endReply
  rw [if_pos past']
  obtain ⟨x, mem, isIt⟩ := setLatch_mem (s := ((s.modPort p Port.leftTransfer).modTarget p fun T =>
    { T with replies := upd T.replies o fun _ => Reply.reset }).modStats p fun c =>
      { c with repliesTaken := c.repliesTaken + 1 }) (.replyTaken p o) 0
  exact ⟨x, (side_applyHeld TargetSide.same).latches x mem, isIt⟩

/-- A port that takes the halt on the way of the others, on a state in which it still is as at the start. -/
theorem portHalted_of (before : HaltFrame s w) (same : w.port p = s.port p)
    (after : HaltFrame (haltPort w p) u) (result : u.port p = (haltPort w p).port p) : PortHalted s u p := by
  obtain ⟨cfg, list, served, tgt, stats, busFree, inStep, pending, state, idle, ends, restart, quiet⟩ :=
    (w.port p).engineHalted_facts w.timebase (w.timeoutsReached p)
  rw [← haltEngine_port] at cfg list served tgt stats busFree inStep pending state idle ends restart quiet
  obtain ⟨kept, noTransfer, atHand, told, scl, sda, lines⟩ := haltTransfer_keeps (haltEngine p w) p
  obtain ⟨none, image, reply, mailbox, others⟩ := haltTransfer_port (haltEngine p w) p
  rw [same] at cfg list served tgt stats busFree inStep pending state idle ends restart quiet
  rw [tgt] at atHand told lines none image reply mailbox others
  have ready : (s.port p).eng.endsAtOnce → ∀ k t, (s.port p).inService = some k → s.txn k = some t →
      u.txn k = some { t with state := .ready } := by
    intro e k t hk ht
    have now : (haltPort w p).txn k = (s.txn k).map fun y => { y with state := .ready } := by
      rw [haltPort_txn, takeQuiet_txn_of_ends w (by rw [same]; exact e) (by rw [same]; exact hk)]
      rcases before.taken k with e | e <;> rw [e]
      simp [Function.comp_def]
    rw [after.taken.ready now, ht]
    rfl
  cases disable : (s.port p).tgt.disableTold
  case true =>
    have off := enterOff_filed p ((haltTransfer p (haltEngine p w)).modPort p Port.haltLeft)
    rw [← haltPort_told (by rw [same]; exact disable), ← result, port_modPort, if_pos rfl] at off
    have keptHere := And.intro (congrArg Port.cfg kept)
      (And.intro (congrArg Port.list kept) (congrArg Port.inService kept))
    generalize (haltTransfer p (haltEngine p w)).port p = V at off keptHere
    obtain ⟨cfg', list', served'⟩ := keptHere
    unfold PortHalted
    dsimp only
    rw [off]
    exact ⟨cfg'.trans cfg, list'.trans list, served'.trans served, rfl, rfl, ready,
      fun _ => ⟨rfl, rfl, rfl, rfl, rfl, rfl⟩,
      fun c => absurd (disable.symm.trans c) (by simp)⟩
  case false =>
    have stays := haltPort_stays (s := w) (p := p) (by rw [same]; exact disable)
    have port : u.port p = ((haltTransfer p (haltEngine p w)).port p).haltLeft := by
      rw [result, stays, port_modPort, if_pos rfl]
    have keptHere := And.intro (congrArg Port.cfg kept) <| And.intro (congrArg Port.list kept) <|
      And.intro (congrArg Port.inService kept) <| And.intro (congrArg Port.busFree kept) <|
      And.intro (congrArg Port.inStep kept) <| And.intro (congrArg Port.disablePending kept) <|
      And.intro (congrArg Port.state kept) (congrArg Port.eng kept)
    have latches : ∀ o n d, (s.port p).tgt.transfer = .replyRead o n d →
        ((s.port p).tgt.replies.get o).bytes.length ≤ n →
        ∃ x ∈ u.mgmt.latches, x.latch = .replyTaken p o := by
      intro o n d e past
      obtain ⟨x, mem, isIt⟩ := haltTransfer_replyTaken (s := haltEngine p w) (p := p) (o := o) (n := n) (d := d)
        (by rw [tgt]; exact e) (by rw [tgt]; exact past)
      exact ⟨x, after.latches x (by rw [stays]; exact mem), isIt⟩
    have drains : ∀ m, (s.port p).tgt.transfer = .mailboxWrite → (s.port p).tgt.staging = .filling m →
        m.bytes ≠ [] →
        ((haltTransfer p (haltEngine p w)).port p).tgt.staging = .draining
          { m with endTime := s.timebase, endedByRestart := false, abandoned := true } ∧
        ⟨.targetDrain p, .write [(m.buffer.addr, m.bytes)], s.timebase, false, !s.link.busMaster,
          false⟩ ∈ u.accesses := by
      intro m e filling bytes
      have left : ((haltEngine p w).modPort p Port.leftTransfer).port p =
          ((haltEngine p w).port p).leftTransfer := by simp
      have ended := (mailbox e).trans (endMessage_filling (by rw [left, ← filling, ← tgt]; rfl) bytes)
      have clock : (haltEngine p w).timebase = s.timebase := by
        rw [(before.trans (haltFrame_haltEngine p w)).eq]
      have link : (haltEngine p w).link = s.link := by
        rw [(before.trans (haltFrame_haltEngine p w)).eq]
      refine ⟨by rw [ended]; simp [clock], after.accesses.mem ?_⟩
      rw [stays, ended]
      simp [issue, clock, link]
    unfold PortHalted
    dsimp only
    rw [port]
    generalize (haltTransfer p (haltEngine p w)).port p = V at *
    generalize (haltEngine p w).port p = X at *
    obtain ⟨cfg', list', served', busFree', inStep', pending', state', eng'⟩ := keptHere
    dsimp only at cfg' list' served' busFree' inStep' pending' state' eng'
    dsimp only [Port.haltLeft]
    refine ⟨cfg'.trans cfg, list'.trans list, served'.trans served, rfl, noTransfer, ready,
      fun c => absurd (disable.symm.trans c) (by simp), fun _ => ⟨busFree'.trans busFree, inStep'.trans inStep,
      pending'.trans pending, atHand, ?_, fun e => ?_, fun e => ?_, fun e r => eng'.trans (restart e r), fun e => ?_,
      fun noReply noMailbox => ?_, drains, fun o d i n b e held => ?_, fun o n d e => ?_⟩⟩
    · rw [state', state]
      by_cases idleNow : (s.port p).eng.phase = .opening ∧ (s.port p).eng.restart = false
      · simp [idleNow]
      · simp only [if_neg idleNow]
    · exact ⟨eng'.trans (idle e).1, scl (idle e).2.1, sda (idle e).2.2⟩
    · exact ⟨eng'.trans (ends e).1, scl (ends e).2.1, sda (ends e).2.2⟩
    · refine ⟨eng'.trans (quiet e).1, fun none => ?_⟩
      exact ⟨(lines none).1.trans (quiet e).2.1, (lines none).2.trans (quiet e).2.2⟩
    · exact ⟨(others noMailbox noReply).1.trans stats, (others noMailbox noReply).2⟩
    · rw [image o d e]
      simp [Port.heldApplied, Port.leftTransfer, tgt, held]
    · refine ⟨fun short held => ?_, fun past held => ?_, fun past => ⟨?_, latches o n d e past⟩, fun bytes held => ?_⟩
      · rw [reply o n d e]
        simp [Port.replyEnded, Port.heldApplied, Port.leftTransfer, tgt, held, Nat.not_le.mpr short]
      · rw [reply o n d e]
        simp [Port.replyEnded, Port.heldApplied, Port.leftTransfer, tgt, held, past, Reply.reset]
      · rw [reply o n d e]
        have ended : ∀ Q : Port, Q.heldApplied.stats = Q.stats := fun Q => by
          unfold Port.heldApplied; split <;> rfl
        simp [ended, Port.replyEnded, Port.leftTransfer, tgt, past, stats]
      · rw [reply o n d e]
        by_cases past : ((s.port p).tgt.replies.get o).bytes.length ≤ n <;>
          simp [Port.replyEnded, Port.heldApplied, Port.leftTransfer, tgt, held, past]

/-! ### The entry to HALTED as a whole (R194) -/

/-- The part at the entry to HALTED before its ports have taken it. -/
def haltDeclared (f : HaltFault) (s : State) : State :=
  let s := writeControllerStatus (raiseIsr 7 { s with link := { s.link with ctrl := .halted, haltFault := f } })
  { s with
    mgmt := { s.mgmt with command := none, due := none, muted := s.mgmt.muted || !f.keepsEvents },
    rqs := s.rqs.map fun c => { c with deletePending := false },
    trig := { s.trig with prescaler := none, tickDue := [] } }

theorem enterHalted_eq {f : HaltFault} (h : s.link.ctrl = .starting ∨ s.link.ctrl = .running) :
    enterHalted f s = allPorts.foldl haltPort (haltDeclared f s) := by
  unfold enterHalted
  rw [if_pos (by simpa using h)]
  rfl

theorem enterHalted_left {f : HaltFault} (h₁ : s.link.ctrl ≠ .starting) (h₂ : s.link.ctrl ≠ .running) :
    enterHalted f s = s := by
  unfold enterHalted
  rw [if_neg (by simp [h₁, h₂])]

theorem HaltFault.keepsEvents_iff (f : HaltFault) : f.keepsEvents = true ↔ f = .mqFetch ∨ f = .mqCount := by
  cases f <;> simp [HaltFault.keepsEvents]

theorem haltTaken {f : HaltFault} (h : s.link.ctrl = .starting ∨ s.link.ctrl = .running) :
    HaltTaken f s (enterHalted f s) := by
  rw [enterHalted_eq h]
  obtain ⟨frame, -, each⟩ := foldl_ports (R := HaltFrame) (fun _ => .same) .trans haltFrame_haltPort
    haltPort_port_of_ne allPorts nodup_allPorts (haltDeclared f s)
  have txn : ∀ k, (∀ p, (s.port p).inService = some k → ¬ (s.port p).eng.endsAtOnce) →
      (allPorts.foldl haltPort (haltDeclared f s)).txn k = s.txn k := fun k out =>
    foldl_txn haltPort_port_of_ne (fun v p k left => by rw [haltPort_txn, takeQuiet_txn_of_not v left])
      allPorts nodup_allPorts (haltDeclared f s) fun p _ => out p
  have port : ∀ p, (haltDeclared f s).port p = s.port p := fun _ => rfl
  have mgmt := frame.mgmt rfl
  obtain ⟨later, accesses, -⟩ := frame.accesses
  refine ⟨?_, ?_, ?_, ?_, ⟨later, ?_⟩, ?_, ?_, fun h₁ h₂ => ?_, fun h => ?_, fun x hx => ?_, ?_, ?_, ?_, ?_, ?_,
    fun q => ?_, txn, fun p => ?_⟩
  · rw [frame.eq]; rfl
  · rw [frame.eq]; rfl
  · rw [frame.eq]; rfl
  · rw [frame.eq]; rfl
  · rw [accesses, frame.eq]
    simp [haltDeclared, writeControllerStatus, issue, raiseIsr, setInts, State.statusSlot]
  · rw [mgmt]; rfl
  · rw [mgmt]; rfl
  · rw [mgmt]
    have ends : f.keepsEvents = false :=
      Bool.eq_false_iff.mpr fun e => (f.keepsEvents_iff.mp e).elim h₁ h₂
    simp [haltDeclared, ends]
  · rw [mgmt]
    simp [haltDeclared, f.keepsEvents_iff.mpr h, writeControllerStatus, issue, raiseIsr, setInts]
  · exact frame.latches x hx
  · rw [frame.eq]; rfl
  · rw [frame.eq]; rfl
  · rw [frame.eq]; rfl
  · rw [frame.eq]; rfl
  · rw [frame.eq]; rfl
  · rw [frame.eq]
    simp [haltDeclared, State.rq, writeControllerStatus, issue, raiseIsr, setInts]
  · obtain ⟨w, before, same, after, result⟩ := each p (mem_allPorts p)
    have halted : PortHalted (haltDeclared f s) (allPorts.foldl haltPort (haltDeclared f s)) p :=
      portHalted_of before same after result
    exact halted

end Sys2Proof.Machine
end

section
/-! SUPPORT. The mailbox decision taken again (R155), on one port (`decidesAgain`) and on every port
(`decideAll_decides`). -/

namespace Sys2Proof.Machine

variable {r s t u : State} {p q : PortId}

@[simp] theorem buffer_nothing : AtHand.nothing.buffer = none := rfl
@[simp] theorem buffer_wanted : AtHand.wanted.buffer = none := rfl
@[simp] theorem buffer_fetching : AtHand.fetching.buffer = none := rfl
@[simp] theorem buffer_present {b : RxBuffer} : (AtHand.present b).buffer = some b := rfl

@[simp] theorem isFree_free : TStaging.free.isFree = true := rfl
@[simp] theorem isFree_filling {m : Message} : (TStaging.filling m).isFree = false := rfl
@[simp] theorem isFree_draining {m : Message} : (TStaging.draining m).isFree = false := rfl
@[simp] theorem isFree_posting : TStaging.posting.isFree = false := rfl
@[simp] theorem isDraining_free : TStaging.free.isDraining = false := rfl
@[simp] theorem isDraining_filling {m : Message} : (TStaging.filling m).isDraining = false := rfl
@[simp] theorem isDraining_posting : TStaging.posting.isDraining = false := rfl
@[simp] theorem isDraining_draining {m : Message} : (TStaging.draining m).isDraining = true := rfl

theorem messageComing_iff (s : State) (p : PortId) : s.messageComing p = true ↔ MessageComing s p := by
  have staging : ((s.port p).tgt.staging.isFree || (s.port p).tgt.staging.isDraining) = true ↔
      (s.port p).tgt.staging = .free ∨ ∃ m, (s.port p).tgt.staging = .draining m := by
    cases (s.port p).tgt.staging <;> simp
  unfold State.messageComing MessageComing State.bufferComing
  dsimp only
  rw [Bool.and_eq_true, staging]
  cases (s.port p).tgt.atHand <;> simp

/-- A decision starts the message with the buffer at hand and staging FREE, waits while what is missing is
on its way, and is otherwise a refusal (R155). -/
theorem decideMessage_starts {who : Addressed} {a : BitVec 7} {x : Word} {b : RxBuffer}
    (hand : (s.port p).tgt.atHand = .present b) (free : (s.port p).tgt.staging = .free) :
    decideMessage p who a x s = startMessage p who a b s := by
  simp [decideMessage, State.messageBuffer, hand, free]

theorem messageBuffer_eq_none (h : (s.port p).tgt.staging = .free → ∀ b, (s.port p).tgt.atHand ≠ .present b) :
    s.messageBuffer p = none := by
  unfold State.messageBuffer
  cases staging : (s.port p).tgt.staging <;> cases hand : (s.port p).tgt.atHand <;>
    simp_all

theorem decideMessage_waits {who : Addressed} {a : BitVec 7} {x : Word} (h : MessageComing s p)
    (missing : (s.port p).tgt.staging = .free → ∀ b, (s.port p).tgt.atHand ≠ .present b) :
    decideMessage p who a x s = s.modPort p fun P =>
      { P with state := .target, sclDriven := true, tgt := { P.tgt with transfer := .deciding who a x } } := by
  unfold decideMessage
  rw [messageBuffer_eq_none missing]
  dsimp only
  rw [if_pos ((messageComing_iff s p).mpr h)]

theorem decideMessage_refuses {who : Addressed} {a : BitVec 7} {x : Word} (h : ¬ MessageComing s p) :
    decideMessage p who a x s = refuseMessage p s := by
  have missing : (s.port p).tgt.staging = .free → ∀ b, (s.port p).tgt.atHand ≠ .present b :=
    fun free b hand => h ⟨.inl ⟨b, hand⟩, .inl free⟩
  unfold decideMessage
  rw [messageBuffer_eq_none missing]
  dsimp only
  rw [if_neg fun e => h ((messageComing_iff s p).mp e)]

/-- A refusal is counted for the missing buffer, or for staging in use with a buffer at hand (R155). -/
theorem refuseMessage_of_buffer {b : RxBuffer} (h : (s.port p).tgt.atHand = .present b) :
    refuseMessage p s = refuse p (s.modStats p fun c => { c with refusedBusy := c.refusedBusy + 1 }) := by
  simp [refuseMessage, h]

theorem refuseMessage_of_none (h : ∀ b, (s.port p).tgt.atHand ≠ .present b) :
    refuseMessage p s = setLatch (.ringEmpty p) 0
      (refuse p (s.modStats p fun c => { c with refusedNoBuffer := c.refusedNoBuffer + 1 })) := by
  unfold refuseMessage
  rw [if_neg]
  cases e : (s.port p).tgt.atHand <;> simp
  exact h _ e

theorem decideAgain_of_deciding {who : Addressed} {a : BitVec 7} {x : Word}
    (h : (s.port p).tgt.transfer = .deciding who a x) : decideAgain p s = decideMessage p who a x s := by
  unfold decideAgain
  rw [h]

/-- What one port makes of its waiting decision. -/
theorem decidesAgain (p : PortId) (s : State) : DecidesAgain s (decideAgain p s) p := by
  unfold DecidesAgain
  dsimp only
  refine ⟨fun not => ?_, fun who a x waits => ⟨fun b hand free => ?_, fun coming missing => ?_,
    fun gone => ⟨?_, fun none => ?_⟩⟩⟩
  · rw [decideAgain_of_not]
    cases e : (s.port p).tgt.transfer
    case deciding => exact absurd e (not _ _ _)
    all_goals rfl
  · rw [decideAgain_of_deciding waits, decideMessage_starts hand free]
    simp [startMessage, touch]
  · rw [decideAgain_of_deciding waits, decideMessage_waits coming missing]
    simp [← waits]
  · rintro ⟨b, hand⟩
    rw [decideAgain_of_deciding waits, decideMessage_refuses gone, refuseMessage_of_buffer hand]
    simp [refuse, touch]
  · rw [decideAgain_of_deciding waits, decideMessage_refuses gone, refuseMessage_of_none none]
    exact ⟨by simp [refuse, touch], setLatch_mem _ _⟩

/-! ### Every port's decision -/

/-- Between `s` and `t` only ports have changed, and latches have been set. -/
structure LatchFrame (s t : State) : Prop where
  eq : t = { s with ports := t.ports, mgmt := { s.mgmt with latches := t.mgmt.latches } }
  latches : ∀ x ∈ s.mgmt.latches, x ∈ t.mgmt.latches

theorem LatchFrame.same : LatchFrame s s := ⟨rfl, fun _ => id⟩
theorem LatchFrame.trans (h : LatchFrame r s) (g : LatchFrame s t) : LatchFrame r t :=
  ⟨by rw [g.eq, h.eq], fun x hx => g.latches x (h.latches x hx)⟩

theorem latchFrame_modPort (f : Port → Port) : LatchFrame s (s.modPort p f) := ⟨rfl, fun _ => id⟩

theorem latchFrame_setLatch (l : Latch) (b : Byte) : LatchFrame s (setLatch l b s) :=
  ⟨by rw [setLatch_eq]; exact congrArg (fun m => { s with mgmt := m }) (setLatch_keeps l b),
    setLatch_subset l b⟩

theorem latchFrame_refuse : LatchFrame s (refuse p s) :=
  (latchFrame_modPort _).trans (latchFrame_modPort _)

theorem latchFrame_decideMessage (who : Addressed) (a : BitVec 7) (x : Word) :
    LatchFrame s (decideMessage p who a x s) := by
  unfold decideMessage
  split
  · exact (latchFrame_modPort _).trans (latchFrame_modPort _)
  · split
    · exact latchFrame_modPort _
    · unfold refuseMessage
      split
      · exact (latchFrame_modPort _).trans latchFrame_refuse
      · exact ((latchFrame_modPort _).trans latchFrame_refuse).trans (latchFrame_setLatch _ _)

theorem latchFrame_decideAgain (s : State) (p : PortId) : LatchFrame s (decideAgain p s) := by
  unfold decideAgain
  split
  · exact latchFrame_decideMessage _ _ _
  · exact .same

/-- A decision depends on its own port, the receive ring and the time alone. -/
theorem DecidesAgain.moved {v w : State} (h : DecidesAgain s t p) (port : s.port p = v.port p) (rx : s.rx = v.rx)
    (time : s.timebase = v.timebase) (after : w.port p = t.port p)
    (latches : ∀ x ∈ t.mgmt.latches, x ∈ w.mgmt.latches) : DecidesAgain v w p := by
  unfold DecidesAgain MessageComing at *
  dsimp only at *
  rw [port, rx, time] at h
  rw [after]
  obtain ⟨stays, decides⟩ := h
  refine ⟨stays, fun who a x waits => ?_⟩
  obtain ⟨starts, coming, gone⟩ := decides who a x waits
  refine ⟨starts, coming, fun no => ⟨(gone no).1, fun none => ?_⟩⟩
  obtain ⟨same, y, mem, isIt⟩ := (gone no).2 none
  exact ⟨same, y, latches y mem, isIt⟩

theorem decideAll_decides (s : State) :
    LatchFrame s (decideAll s) ∧ ∀ p, DecidesAgain s (decideAll s) p := by
  obtain ⟨frame, -, each⟩ := foldl_ports (f := fun s p => decideAgain p s) (R := LatchFrame) (fun _ => .same)
    .trans latchFrame_decideAgain (fun s p q h => (side_decideAgain TargetSide.same).other q h) allPorts
    nodup_allPorts s
  refine ⟨frame, fun p => ?_⟩
  obtain ⟨u, before, same, after, result⟩ := each p (mem_allPorts p)
  exact (decidesAgain p u).moved same (by rw [before.eq]) (by rw [before.eq]) result after.latches

/-- With no decision waiting nothing changes. -/
theorem decideAll_of_none (h : ∀ p, (s.port p).tgt.transfer.isDeciding = false) : decideAll s = s := by
  unfold decideAll
  generalize allPorts = l
  induction l with
  | nil => rfl
  | cons a l ih => rw [List.foldl_cons, decideAgain_of_not (h a), ih]

end Sys2Proof.Machine
end

section
/-! SUPPORT. The end of a host access as its block sees it (`access_heeded`), and the entry to HALTED of a part
at rest. From them the statement HeaderReadDecidesTheStart; the rules of the notifies, and from them the
statements NotifiesAreStored and CountErrors. -/

namespace Sys2Proof.Machine

variable {r s t u : State} {p q : PortId} {f : HaltFault}

/-! ### The end of an access -/

/-- Outside STOPPING the block that issued the access is told of its end (R185). -/
theorem access_heeded {f : Access → Bool} {k : Nat} {a : Access} {rest : List Access} {ok : Bool} {got : Nat}
    {g : Access → Bool → State → State} {kind : AccessKind → Bool} (out : Awake s) (on : s.link.ctrl ≠ .stopping)
    (hf : ∀ b, f b = kind b.kind) (h : InFlight kind k s a rest) (he : EndsAs a ok got) :
    awake s (fun s => endAccess f k ok got g s) = g a ok (s.inFlight rest) := by
  rw [awake_of_awake out, endAccess_inFlight hf h he, if_pos (heeds_of_ne on)]

theorem exec_headerReadEnd {a : Access} {rest : List Access} {ok : Bool} {h : Vector Byte 64} (out : Awake s)
    (on : s.link.ctrl ≠ .stopping) (fly : InFlight (· == .header) 0 s a rest) (ends : EndsAs a ok 64) :
    exec (.headerReadEnd ok h) s = .next (headerEnd ok h.toList (s.inFlight rest)) :=
  congrArg Host.Outcome.next (access_heeded out on (fun _ => rfl) fly ends)

/-! ### The entry to HALTED of a part at rest -/

theorem modPort_self {f : Port → Port} (h : f (s.port p) = s.port p) : s.modPort p f = s := by
  rw [modPort_congr p f id h]
  unfold State.modPort upd
  simp [Vector.get]

theorem haltPort_of_reset (h : s.port p = Port.reset) : haltPort s p = s := by
  have quiet : haltEngine p s = s := by
    have taken : takeQuiet p s = s := by simp [takeQuiet, h, Port.reset, Engine.reset]
    unfold haltEngine
    rw [taken]
    dsimp only
    rw [if_pos (by rw [h]; rfl)]
    exact modPort_self (by rw [h]; rfl)
  have transfer : haltTransfer p s = s := by
    unfold haltTransfer
    rw [if_pos (by rw [h]; rfl)]
  rw [haltPort_stays (by rw [h]; rfl), quiet, transfer]
  exact modPort_self (by rw [h]; rfl)

theorem enterHalted_of_rest (rest : AtRest s) (h : s.link.ctrl = .starting ∨ s.link.ctrl = .running) :
    enterHalted f s = haltDeclared f s := by
  have ports : ∀ p, (haltDeclared f s).port p = Port.reset := fun p => rest.port p
  rw [enterHalted_eq h]
  generalize haltDeclared f s = v at ports
  generalize allPorts = l
  induction l with
  | nil => rfl
  | cons a l ih => rw [List.foldl_cons, haltPort_of_reset (ports a), ih]

/-- With no command in hand and no queue DELETING the declaration changes the registers and the mute
alone. -/
theorem haltDeclared_of_rest (rest : AtRest s) (mutes : f.keepsEvents = false) :
    haltDeclared f s =
      let u : State := { s with
        link := { s.link with ctrl := .halted, haltFault := f }, mgmt := { s.mgmt with muted := true } }
      (setInts (s.ints.isr ||| 0x80) s.ints.imr u).issued .controllerStatus
        (.write [(s.statusSlot 15, controllerStatusWord u.link s.timebase)]) false := by
  have mgmt : ({ s.mgmt with command := none, due := none, muted := s.mgmt.muted || !f.keepsEvents } : Mgmt) =
      { s.mgmt with muted := true } := by
    rw [rest.mgmt, mutes]; rfl
  have rqs : (s.rqs.map fun c => ({ c with deletePending := false } : RqCtx)) = s.rqs := by
    rw [rest.rqs]
    exact (Vector.map_replicate ..).trans rfl
  have trig : ({ s.trig with prescaler := none, tickDue := [] } : TrigUnit) = s.trig := by
    rw [rest.trig]; rfl
  have declared : haltDeclared f s = { writeControllerStatus (raiseIsr 7
      { s with link := { s.link with ctrl := .halted, haltFault := f } }) with
    mgmt := { s.mgmt with command := none, due := none, muted := s.mgmt.muted || !f.keepsEvents },
    rqs := s.rqs.map fun c => { c with deletePending := false },
    trig := { s.trig with prescaler := none, tickDue := [] } } := rfl
  rw [declared, mgmt, rqs, trig]
  rfl

end Sys2Proof.Machine

namespace Sys2Proof.Proofs

open Sys2Proof.Machine

/-- Settles O16: the three ways the header read of STARTING can end, and the end of a controller status
word write, which no block heeds. -/
theorem headerReadDecidesTheStart : Obligations.HeaderReadDecidesTheStart := by
  intro s a rest ok h out
  refine ⟨fun starting fly ends => ?_, fun k fly ends => ?_⟩
  · have on : s.link.ctrl ≠ .stopping := by rw [starting]; nofun
    have starting' : (s.inFlight rest).link.ctrl = .starting := starting
    rw [exec_headerReadEnd out on fly ends]
    unfold headerEnd
    rw [if_pos starting']
    refine ⟨fun success valid => ?_, fun rests => ?_⟩
    · rw [success, valid]
      rfl
    · have atRest : AtRest (s.inFlight rest) := by
        have still := restsUntilRunning_iff.mp rests (.inr starting)
        obtain ⟨pre, post, whole, others, -, -⟩ := fly
        refine ⟨still.mgmt, still.rqs, still.slots, still.fetch, still.ports, still.cqs, still.comp, still.rx,
          still.trig, fun b hb => still.header b ?_⟩
        have hb : b ∈ rest := hb
        rw [others] at hb
        rw [whole]
        simp only [List.mem_append, List.mem_cons] at hb ⊢
        exact hb.imp_right .inr
      refine ⟨fun success invalid => ?_, fun failed => ?_⟩
      · rw [success, invalid, if_neg (by simp), if_neg (by simp), enterHalted_of_rest atRest (.inl starting'),
          haltDeclared_of_rest atRest rfl]
        dsimp only
        rw [setInts_eq]
        rfl
      · rw [failed, if_pos (by rfl), enterHalted_of_rest atRest (.inl starting'), haltDeclared_of_rest atRest rfl]
        dsimp only
        rw [setInts_eq]
        rfl
  · have ended : awake s (fun s => endAccess (isKind .controllerStatus) k ok 0 (fun _ _ s => s) s) =
        s.inFlight rest := by
      rw [awake_of_awake out, endAccess_inFlight (f := isKind .controllerStatus) (fun _ => rfl) fly ends, ite_self]
    exact congrArg Host.Outcome.next ended

end Sys2Proof.Proofs
end

section
/-! SUPPORT. What a record handed over, and the block it releases, leave alone (`Passed`); and the entry of a
completion queue to ERROR (R116). -/

namespace Sys2Proof.Machine

variable {r s t u : State} {p q : PortId} {n : CqId}

/-! ### What a record handed over leaves alone -/

/-- Between `s` and `t` records were handed over and discarded: the queues' contexts, the registers, the
table, the writer and the ring's counts stay, no latch is cleared and no access ends. -/
structure Passed (s t : State) : Prop where
  eq : t = { s with
    accesses := t.accesses, mgmt := t.mgmt, rqs := t.rqs, slots := t.slots, fetch := t.fetch,
    ports := t.ports, comp := { s.comp with holding := t.comp.holding },
    rx := { s.rx with waiting := t.rx.waiting } }
  latches : ∀ x ∈ s.mgmt.latches, x ∈ t.mgmt.latches
  accesses : Issues s t
  joins : Joins s t

theorem Passed.same : Passed s s := ⟨rfl, fun _ => id, .of_eq rfl, .same⟩
theorem Passed.cq (h : Passed s t) (n : CqId) : t.cq n = s.cq n := by rw [h.eq]; rfl
theorem Passed.trans (h : Passed r s) (g : Passed s t) : Passed r t where
  eq := by rw [g.eq, h.eq]
  latches x hx := g.latches x (h.latches x hx)
  accesses := h.accesses.trans g.accesses (by rw [h.eq])
  joins := h.joins.trans g.joins h.cq

theorem TargetSide.passed (h : TargetSide p s t) : Passed s t :=
  ⟨by rw [h.eq], h.latches, h.accesses, h.joins⟩
theorem Released.passed (h : Released s t) : Passed s t :=
  ⟨by rw [h.eq], fun x hx => by rw [h.eq]; exact hx, h.accesses, .of_eq (by rw [h.eq])⟩

theorem passed_modTxn (k : SlotId) (f : Txn → Txn) (h : Passed r s) : Passed r (s.modTxn k f) := by
  refine h.trans ?_
  unfold State.modTxn
  split
  · exact (released_setSlot _ _ _).passed
  · exact .same

theorem passed_offerPlace (h : Passed r s) : Passed r (offerPlace p s) := by
  refine h.trans ?_
  unfold offerPlace
  split
  · exact (released_examineHold _ _).passed
  · exact .same

theorem side_tellDisable (h : TargetSide p r s) : TargetSide p r (tellDisable p s) := by
  unfold tellDisable
  split
  · exact side_enterOff h
  · split
    · exact side_enterOff h
    · exact side_enterOff h
    · exact side_enterOff h
    · exact side_modTarget h
    · exact side_modTarget h
    · exact h
    · exact h

theorem passed_leaveList (h : Passed r s) : Passed r (leaveList p s) := by
  have left := passed_offerPlace (p := p) (h.trans (side_modPort (f := fun P => { P with
    list := P.list.tail, inService := none, pendingResult := none,
    stats := { P.stats with completed := P.stats.completed + 1 } }) (TargetSide.same (p := p))).passed)
  unfold leaveList
  dsimp only
  split
  · exact left.trans (side_tellDisable TargetSide.same).passed
  · exact left

theorem passed_tryOffer {e : HoldEntry} (o : tryOffer e s = some t) : Passed s t := by
  rcases tryOffer_cases (s := s) e with ⟨running, room, x⟩ | ⟨-, x⟩ | ⟨-, -, x⟩ <;> rw [x] at o <;> cases o
  · exact ⟨rfl, fun _ => id, .of_eq rfl, joins_tryOffer x⟩
  · exact (released_discard e s).passed

theorem passed_serviceAccepted {k : SlotId} (h : Passed r s) : Passed r (serviceAccepted p k s) :=
  passed_leaveList (passed_modTxn _ _ h)

theorem passed_offerService (h : Passed r s) : Passed r (offerService p s) := by
  unfold offerService
  split
  · split
    next o => exact passed_serviceAccepted (h.trans (passed_tryOffer o))
    · exact h
  · exact h

theorem passed_fetch {v : FetchUnit} (h : Passed r s) : Passed r { s with fetch := v } :=
  h.trans ⟨rfl, fun _ => id, .of_eq rfl, .same⟩

theorem passed_malformedAccepted {k : SlotId} (h : Passed r s) : Passed r (malformedAccepted k s) := by
  unfold malformedAccepted
  exact passed_fetch (passed_modTxn _ _ h)

theorem passed_offerMalformed {k : SlotId} (h : Passed r s) : Passed r (offerMalformed k s) := by
  unfold offerMalformed
  split
  · exact h
  · split
    next o => exact passed_malformedAccepted (h.trans (passed_tryOffer o))
    · exact passed_fetch h

theorem passed_receiveAccepted (h : Passed r s) : Passed r (receiveAccepted s) :=
  h.trans ⟨rfl, fun _ => id, .of_eq rfl, .same⟩

theorem passed_offerReceive (h : Passed r s) : Passed r (offerReceive s) := by
  unfold offerReceive
  split
  · split
    next o => exact passed_receiveAccepted (h.trans (passed_tryOffer o))
    · exact h
  · exact h

theorem passed_accepted (b : OfferBlock) (h : Passed r s) : Passed r (accepted b s) := by
  unfold accepted
  split
  · split
    · exact passed_serviceAccepted h
    · exact h
  · split
    · exact h.trans (side_offerTargetN (side_targetAccepted TargetSide.same)).passed
    · exact h
  · split
    · exact passed_malformedAccepted h
    · exact h
  · exact passed_receiveAccepted h

theorem passed_offerAgain (b : OfferBlock) (h : Passed r s) : Passed r (offerAgain b s) := by
  unfold offerAgain
  split
  · exact passed_offerService h
  · exact h.trans (side_offerTargetN TargetSide.same).passed
  · unfold offerStalled
    split
    · exact passed_offerMalformed h
    · exact h
  · exact passed_offerReceive h

theorem passed_foldl {α : Type} {f : State → α → State} (hf : ∀ s x, Passed s (f s x)) (l : List α)
    (h : Passed r s) : Passed r (l.foldl f s) := by
  induction l generalizing s with
  | nil => exact h
  | cons a l ih => exact ih (h.trans (hf s a))

theorem passed_releaseWaiting (n : CqId) (s : State) (b : OfferBlock) : Passed s (releaseWaiting n s b) := by
  unfold releaseWaiting
  split
  · exact passed_offerAgain b .same
  · exact .same

/-! ### Places handed out (R111) -/

/-- The state in which the places that have freed are given, before the blocks act on them. -/
def placesGiven (s : State) : State :=
  { s with comp := { s.comp with
    holding := s.comp.holding ++ s.claims.map Prod.snd,
    lastAdmitted := lastOf s.comp.lastAdmitted s.claims } }

theorem passed_handOut (s : State) : Passed (placesGiven s) (handOut s) :=
  passed_foldl (fun _ _ => passed_accepted _ .same) _ .same

theorem claims_running (s : State) : ∀ x ∈ s.claims, (s.cq x.2.cq).state = .running := by
  intro x hx
  obtain ⟨b, -, claimed⟩ := List.mem_filterMap.mp (List.mem_of_mem_take hx)
  unfold State.claim at claimed
  split at claimed
  · split at claimed
    next running => cases claimed; exact running
    · cases claimed
  · cases claimed

theorem joins_placesGiven (s : State) : Joins s (placesGiven s) := by
  refine ⟨s.claims.map Prod.snd, rfl, fun e he => ?_, fun some => ?_⟩
  · obtain ⟨x, hx, rfl⟩ := List.mem_map.mp he
    exact claims_running s x hx
  · have short := claims_length s
    have given : s.claims.length ≠ 0 := fun e => some (by simpa using e)
    simp only [placesGiven, List.length_append, List.length_map]
    omega

/-! ### A completion queue's entry to ERROR (R116) -/

theorem passed_rqEnterError (q : RqId) (x : RqReason) (s : State) : Passed s (rqEnterError q x s) := by
  unfold rqEnterError
  split
  · dsimp only
    refine ⟨by rw [setLatch_eq]; rfl, fun y hy => setLatch_subset _ _ y hy, .one (by rw [setLatch_accesses]; rfl) rfl,
      .of_eq (by rw [setLatch_comp]; rfl)⟩
  · exact .same

theorem passed_failBound (n : CqId) (s : State) : Passed s (failBound n s) :=
  passed_foldl (fun s q => by
    split
    · exact passed_rqEnterError q _ s
    · exact .same) _ .same

theorem passed_discardQueue (n : CqId) (s : State) :
    Passed { s with comp := { s.comp with holding := s.comp.holding.filter fun e => e.cq != n } }
      (discardQueue n s) :=
  passed_foldl (fun s e => (released_discard e s).passed) _ .same

/-- Between `s` and `t` the contexts and the writer stay, no latch is cleared, no access ends, and no record
of a queue that is not RUNNING comes. -/
structure Onward (s t : State) : Prop where
  cqs : t.cqs = s.cqs
  writer : t.comp.writer = s.comp.writer
  latches : ∀ x ∈ s.mgmt.latches, x ∈ t.mgmt.latches
  accesses : ∀ a ∈ s.accesses, a ∈ t.accesses
  without : ∀ n, (s.cq n).state ≠ .running → (∀ e ∈ s.comp.holding, e.cq ≠ n) → ∀ e ∈ t.comp.holding, e.cq ≠ n

theorem Onward.cq (h : Onward s t) (n : CqId) : t.cq n = s.cq n := by unfold State.cq; rw [h.cqs]

theorem Onward.trans (h : Onward r s) (g : Onward s t) : Onward r t where
  cqs := g.cqs.trans h.cqs
  writer := g.writer.trans h.writer
  latches x hx := g.latches x (h.latches x hx)
  accesses a ha := g.accesses a (h.accesses a ha)
  without n stopped none := g.without n (by rw [h.cq]; exact stopped) (h.without n stopped none)

theorem Passed.onward (h : Passed s t) : Onward s t where
  cqs := by rw [h.eq]
  writer := by rw [h.eq]
  latches := h.latches
  accesses _ := h.accesses.mem
  without _ stopped none := h.joins.without stopped none

theorem onward_handOut (s : State) : Onward s (handOut s) := by
  have given : Onward s (placesGiven s) :=
    { cqs := rfl, writer := rfl, latches := fun _ => id, accesses := fun _ => id,
      without := fun _ stopped none => (joins_placesGiven s).without stopped none }
  exact given.trans (passed_handOut s).onward

theorem onward_discardQueue (n : CqId) (s : State) : Onward s (discardQueue n s) := by
  have taken : Onward s
      { s with comp := { s.comp with holding := s.comp.holding.filter fun e => e.cq != n } } :=
    { cqs := rfl, writer := rfl, latches := fun _ => id, accesses := fun _ => id,
      without := fun _ _ none e he => none e (List.mem_of_mem_filter he) }
  exact taken.trans (passed_discardQueue n s).onward

/-- After its discard no record of the queue waits. -/
theorem discardQueue_without (stopped : (s.cq n).state ≠ .running) : ∀ e ∈ (discardQueue n s).comp.holding, e.cq ≠ n :=
  (passed_discardQueue n s).joins.without stopped fun e he => by
    simpa using (List.mem_filter.mp he).2

/-- The part of the entry to ERROR that the queue's own context, its status word and its latch take. -/
def cqDeclared (n : CqId) (reason : CqReason) (s : State) : State :=
  let s := s.modCq n fun c => { c with state := .error, reason := reason }
  let s := if s.comp.writer.writes n then s
    else issueErrorStatus (.cqStatus n .change) (s.cqStatusXfer n) (reason == .hostFault) s
  let s := if 0 < (s.cq n).unannounced then raiseCq n s else s.modCq n fun c => { c with timer := none }
  setLatch (.cqError n) reason.code s

theorem cqEnterError_eq {reason : CqReason} (h : (s.cq n).state = .running) :
    cqEnterError n reason s =
      blockOrder.foldl (releaseWaiting n) (handOut (discardQueue n (failBound n (cqDeclared n reason s)))) := by
  unfold cqEnterError
  rw [if_pos h]
  rfl

theorem cqEnterError_left {reason : CqReason} (h : (s.cq n).state ≠ .running) : cqEnterError n reason s = s := by
  unfold cqEnterError
  rw [if_neg h]

theorem cqDeclared_cq (n : CqId) (reason : CqReason) (s : State) :
    (cqDeclared n reason s).cq n =
      { s.cq n with state := .error, reason := reason, unannounced := 0, timer := none } := by
  have quiet : ∀ v : State, (if 0 < (v.cq n).unannounced then raiseCq n v
      else v.modCq n fun c => { c with timer := none }).cq n =
      { v.cq n with unannounced := 0, timer := none } := by
    intro v
    split
    · simp [raiseCq, raiseIsr]
    next none =>
      have zero : (v.cq n).unannounced = 0 := Nat.eq_zero_of_not_pos none
      simp [← zero]
  unfold cqDeclared
  dsimp only
  rw [setLatch_cq, quiet]
  split <;> simp [issueErrorStatus, State.cq, State.modCq]

theorem cqDeclared_writes {reason : CqReason} (idle : s.comp.writer.writes n = false) :
    ⟨.cqStatus n .change, .write [(s.statusSlot (10 + n.val),
        cqStatusWord { s.cq n with state := .error, reason := reason } s.timebase)], s.timebase, false,
        !s.link.busMaster, reason == .hostFault⟩ ∈ (cqDeclared n reason s).accesses := by
  have quiet : ∀ v : State, (if 0 < (v.cq n).unannounced then raiseCq n v
      else v.modCq n fun c => { c with timer := none }).accesses = v.accesses := by
    intro v
    split <;> rfl
  unfold cqDeclared
  dsimp only
  rw [setLatch_accesses, quiet, modCq_comp, idle]
  simp [issueErrorStatus, State.cqStatusXfer, State.statusSlot]

theorem cqDeclared_writer (n : CqId) (reason : CqReason) (s : State) :
    (cqDeclared n reason s).comp = s.comp := by
  unfold cqDeclared
  dsimp only
  rw [setLatch_comp]
  split <;> split <;> rfl

/-- A RUNNING completion queue in ERROR: its context, its latch, its status word unless a record of it is
being written, and no record of it left (R115, R116). -/
theorem cqEnterError_running {reason : CqReason} (h : (s.cq n).state = .running) :
    let u := cqEnterError n reason s
    u.cq n = { s.cq n with state := .error, reason := reason, unannounced := 0, timer := none } ∧
      (∃ x ∈ u.mgmt.latches, x.latch = .cqError n) ∧ (∀ e ∈ u.comp.holding, e.cq ≠ n) ∧
      u.comp.writer = s.comp.writer ∧
      (s.comp.writer.writes n = false → ⟨.cqStatus n .change, .write [(s.statusSlot (10 + n.val),
        cqStatusWord { s.cq n with state := .error, reason := reason } s.timebase)], s.timebase, false,
        !s.link.busMaster, reason == .hostFault⟩ ∈ u.accesses) := by
  dsimp only
  rw [cqEnterError_eq h]
  have declared := cqDeclared_cq n reason s
  have bound := (passed_failBound n (cqDeclared n reason s)).onward
  have gone := onward_discardQueue n (failBound n (cqDeclared n reason s))
  have stopped : ((failBound n (cqDeclared n reason s)).cq n).state ≠ .running := by
    rw [bound.cq, declared]; nofun
  have later := (onward_handOut (discardQueue n (failBound n (cqDeclared n reason s)))).trans
    (passed_foldl (passed_releaseWaiting n) blockOrder .same).onward
  have whole := (bound.trans gone).trans later
  refine ⟨(whole.cq n).trans declared, ?_, ?_, whole.writer.trans (by rw [cqDeclared_writer]),
    fun idle => whole.accesses _ (cqDeclared_writes idle)⟩
  · obtain ⟨x, mem, isIt⟩ := setLatch_mem (.cqError n) reason.code
    exact ⟨x, whole.latches x mem, isIt⟩
  · exact later.without n (by rw [gone.cq]; exact stopped) (discardQueue_without stopped)

end Sys2Proof.Machine
end

section
/-! SUPPORT. The notifies (R26, R109, R161, R167, R168, R190): a count stored, a count error, a stray notify.
From them the statements NotifiesAreStored and CountErrors. -/

namespace Sys2Proof.Machine

variable {s t : State} {p : PortId} {q : RqId} {n : CqId} {f : HaltFault} {c : Half}

/-! ### Which ring a notify goes to -/

theorem notify_stray {side : Bool} {i : Nat} (h : s.live = false) : notify side i c s = setStray s := by
  simp [notify, h]

theorem notify_mq (h : s.live = true) : notify false 0 c s = takeMqNotify c s := by
  simp [notify, h, postedNotify]

theorem notify_mcq (h : s.live = true) : notify true 0 c s = takeMcqNotify c s := by
  simp [notify, h, consumedNotify]

theorem notify_rq (h : s.live = true) : notify false (q.val + 1) c s = takeRqNotify q c s := by
  simp [notify, h, postedNotify, q.isLt]

theorem notify_cq (h : s.live = true) : notify true (n.val + 1) c s = takeCqNotify n c s := by
  simp [notify, h, consumedNotify, n.isLt]

theorem notify_rx (h : s.live = true) : notify false 9 c s = takeRxNotify c s := by
  simp [notify, h, postedNotify]

theorem notify_no_posted_ring {i : Nat} (h : 9 < i) : notify false i c s = setStray s := by
  cases live : s.live
  · exact notify_stray live
  · have none : ¬ i - 1 < 8 := by omega
    have out : i ≠ 9 := by omega
    have some : i ≠ 0 := by omega
    simp [notify, live, postedNotify, none, out, some]

theorem notify_no_consumed_ring {i : Nat} (h : 4 < i) : notify true i c s = setStray s := by
  cases live : s.live
  · exact notify_stray live
  · have none : ¬ i - 1 < 4 := by omega
    have some : i ≠ 0 := by omega
    simp [notify, live, consumedNotify, none, some]

/-! ### Count errors -/

theorem postedError_iff (c k size : Half) : postedError c k size = true ↔ size.toNat < (c - k).toNat := by
  simp [postedError]

theorem postedError_eq_false_iff (c k size : Half) :
    postedError c k size = false ↔ (c - k).toNat ≤ size.toNat := by
  simp [postedError]

theorem consumedError_iff (c k made : Half) :
    consumedError c k made = true ↔ (made - k).toNat < (c - k).toNat := by
  simp [consumedError]

theorem consumedError_eq_false_iff (c k made : Half) :
    consumedError c k made = false ↔ (c - k).toNat ≤ (made - k).toNat := by
  simp [consumedError]

/-! ### The rings' notifies, case by case -/

theorem takeMqNotify_stored (h : s.link.ctrl = .running →
    (c - claimed s.mgmt.mqTaken s.mgmt.reading).toNat ≤ s.mgmt.mqSize.toNat) :
    takeMqNotify c s = s.modMgmt fun m => { m with mqPosted := c } := by
  unfold takeMqNotify
  dsimp only
  rw [if_neg]
  rw [Bool.and_eq_true, postedError_iff, decide_eq_true_eq]
  exact fun e => absurd (h e.1) (Nat.not_le.mpr e.2)

theorem takeMqNotify_error (run : s.link.ctrl = .running)
    (h : s.mgmt.mqSize.toNat < (c - claimed s.mgmt.mqTaken s.mgmt.reading).toNat) :
    takeMqNotify c s = enterHalted .mqCount (s.modMgmt fun m => { m with mqPosted := c }) := by
  unfold takeMqNotify
  dsimp only
  rw [if_pos]
  rw [Bool.and_eq_true, postedError_iff, decide_eq_true_eq]
  exact ⟨run, h⟩

theorem takeMcqNotify_stored (h : s.mcqOpen = true →
    (c - s.mgmt.mcqConsumed).toNat ≤ (s.mgmt.mcqProduced - s.mgmt.mcqConsumed).toNat) :
    takeMcqNotify c s = s.modMgmt fun m => { m with mcqConsumed := c } := by
  unfold takeMcqNotify
  dsimp only
  rw [if_neg]
  rw [Bool.and_eq_true, consumedError_iff]
  exact fun e => absurd (h e.1) (Nat.not_le.mpr e.2)

theorem takeMcqNotify_error (canWrite : s.mcqOpen = true)
    (h : (s.mgmt.mcqProduced - s.mgmt.mcqConsumed).toNat < (c - s.mgmt.mcqConsumed).toNat) :
    takeMcqNotify c s =
      let v := s.modMgmt fun m => { m with mcqConsumed := c }
      if s.link.ctrl = .running then enterHalted .mcqCount v else v.modMgmt fun m => { m with muted := true } := by
  unfold takeMcqNotify
  dsimp only
  rw [if_pos]
  rw [Bool.and_eq_true, consumedError_iff]
  exact ⟨canWrite, h⟩

theorem takeRqNotify_absent (h : (s.rq q).state = .absent) : takeRqNotify q c s = setStray s := by
  simp [takeRqNotify, h]

theorem takeRqNotify_stored (h : (s.rq q).state = .error ∨ (s.rq q).state = .deleting ∨
    ((s.rq q).state = .running ∧
      (c - claimed (s.rq q).taken (s.reading q)).toNat ≤ (s.rq q).size.toNat)) :
    takeRqNotify q c s = s.modRq q fun x => { x with posted := c } := by
  rcases h with e | e | ⟨e, fits⟩
  · simp [takeRqNotify, e]
  · simp [takeRqNotify, e]
  · simp [takeRqNotify, e, (postedError_eq_false_iff _ _ _).mpr fits]

theorem takeRqNotify_error (run : (s.rq q).state = .running)
    (h : (s.rq q).size.toNat < (c - claimed (s.rq q).taken (s.reading q)).toNat) :
    takeRqNotify q c s = rqEnterError q .count (s.modRq q fun x => { x with posted := c }) := by
  simp [takeRqNotify, run, (postedError_iff _ _ _).mpr h]

theorem takeCqNotify_absent (h : (s.cq n).state = .absent) : takeCqNotify n c s = setStray s := by
  simp [takeCqNotify, h]

theorem takeCqNotify_stored (h : (s.cq n).state = .error ∨ ((s.cq n).state = .running ∧
    (c - (s.cq n).consumed).toNat ≤ ((s.cq n).produced - (s.cq n).consumed).toNat)) :
    takeCqNotify n c s = s.modCq n fun x => { x with consumed := c } := by
  rcases h with e | ⟨e, fits⟩
  · simp [takeCqNotify, e]
  · simp [takeCqNotify, e, (consumedError_eq_false_iff _ _ _).mpr fits]

theorem takeCqNotify_error (run : (s.cq n).state = .running)
    (h : ((s.cq n).produced - (s.cq n).consumed).toNat < (c - (s.cq n).consumed).toNat) :
    takeCqNotify n c s = cqEnterError n .count (s.modCq n fun x => { x with consumed := c }) := by
  simp [takeCqNotify, run, (consumedError_iff _ _ _).mpr h]

theorem takeRxNotify_absent (h : s.rx.state = .absent) : takeRxNotify c s = setStray s := by
  simp [takeRxNotify, h]

theorem takeRxNotify_of_error (h : s.rx.state = .error) :
    takeRxNotify c s = { s with rx := { s.rx with posted := c } } := by
  simp [takeRxNotify, h]

theorem takeRxNotify_running (run : s.rx.state = .running)
    (fits : (c - claimed s.rx.taken s.rx.fetch.isSome).toNat ≤ s.rx.size.toNat) :
    takeRxNotify c s = decideAll { s with rx := { s.rx with posted := c } } := by
  simp [takeRxNotify, run, (postedError_eq_false_iff _ _ _).mpr fits]

theorem takeRxNotify_error (run : s.rx.state = .running)
    (h : s.rx.size.toNat < (c - claimed s.rx.taken s.rx.fetch.isSome).toNat) :
    takeRxNotify c s = rxEnterError .count { s with rx := { s.rx with posted := c } } := by
  simp [takeRxNotify, run, (postedError_iff _ _ _).mpr h]

/-! ### A request queue's entry to ERROR (R27) -/

theorem rqEnterError_running {x : RqReason} (h : (s.rq q).state = .running) :
    rqEnterError q x s =
      let v := s.modRq q fun c => { c with state := .error, reason := x }
      setLatch (.rqError q) x.code (issueErrorStatus (.rqStatus q) (v.rqStatusXfer q) (x == .statusWrite) v) := by
  simp [rqEnterError, h]

/-- The queue's context, its latch, its status word, and nothing else (R27, R28). -/
theorem rqEnterError_spec {x : RqReason} (h : (s.rq q).state = .running) :
    let u := rqEnterError q x s
    u.rq q = { s.rq q with state := .error, reason := x } ∧ (∀ r, r ≠ q → u.rq r = s.rq r) ∧
      (∃ y ∈ u.mgmt.latches, y.latch = .rqError q) ∧
      u = { s with
        rqs := u.rqs, mgmt := { s.mgmt with latches := u.mgmt.latches },
        accesses := s.accesses ++ [⟨.rqStatus q,
          .write [(s.statusSlot (2 + q.val), rqStatusWord (u.rq q) s.timebase)], s.timebase, false,
          !s.link.busMaster, x == .statusWrite⟩] } := by
  dsimp only
  rw [rqEnterError_running h]
  generalize hv : (s.modRq q fun c => { c with state := .error, reason := x }) = v
  have own : v.rq q = { s.rq q with state := .error, reason := x } := by rw [← hv]; simp
  have word : v.rqStatusXfer q = .write [(s.statusSlot (2 + q.val), rqStatusWord (v.rq q) s.timebase)] := by
    rw [← hv]; rfl
  dsimp only
  generalize hw : issueErrorStatus (.rqStatus q) (v.rqStatusXfer q) (x == .statusWrite) v = w
  have rq : w.rq = v.rq := by rw [← hw]; rfl
  refine ⟨?_, fun r other => ?_, setLatch_mem _ _, ?_⟩
  · rw [setLatch_rq, rq]; exact own
  · rw [setLatch_rq, rq, ← hv, rq_modRq, if_neg other.symm]
  · rw [setLatch_rq, rq, ← word, setLatch_rqs]
    have latch := setLatch_eq (s := w) (.rqError q) x.code
    rw [setLatch_keeps] at latch
    refine latch.trans ?_
    rw [← hw, ← hv]
    rfl

theorem rqEnterError_left {x : RqReason} (h : (s.rq q).state ≠ .running) : rqEnterError q x s = s := by
  simp [rqEnterError, h]

/-! ### What the entry to HALTED leaves of the management unit -/

theorem haltFrame_enterHalted (h : s.link.ctrl = .starting ∨ s.link.ctrl = .running) :
    HaltFrame (haltDeclared f s) (enterHalted f s) := by
  rw [enterHalted_eq h]
  exact (foldl_ports (R := HaltFrame) (fun _ => .same) .trans haltFrame_haltPort haltPort_port_of_ne allPorts
    nodup_allPorts (haltDeclared f s)).1

theorem mgmt_enterHalted (h : s.link.ctrl = .starting ∨ s.link.ctrl = .running) :
    (enterHalted f s).mgmt = { s.mgmt with
      command := none, due := none, muted := s.mgmt.muted || !f.keepsEvents,
      latches := (enterHalted f s).mgmt.latches } :=
  (haltFrame_enterHalted h).mgmt rfl

/-! ### The receive ring's entry to ERROR (R160) -/

theorem rxEnterError_running {x : RxReason} (h : s.rx.state = .running) :
    let u := rxEnterError x s
    u.rx = { s.rx with state := .error, reason := x } ∧ (∃ y ∈ u.mgmt.latches, y.latch = .ringError) ∧
      (∀ p, DecidesAgain { s with rx := { s.rx with state := .error, reason := x } } u p) ∧
      u.accesses = s.accesses ++ [⟨.rxStatus, .write [(s.statusSlot 14,
        rxStatusWord { s.rx with state := .error, reason := x } s.timebase)], s.timebase, false,
        !s.link.busMaster, x == .statusWrite⟩] := by
  dsimp only
  unfold rxEnterError
  rw [if_pos h]
  dsimp only
  generalize hv : setLatch .ringError x.code (issueErrorStatus .rxStatus
    (State.rxStatusXfer { s with rx := { s.rx with state := .error, reason := x } }) (x == .statusWrite)
    { s with rx := { s.rx with state := .error, reason := x } }) = v
  have rx : v.rx = { s.rx with state := .error, reason := x } := by rw [← hv, setLatch_rx]; rfl
  have port : ∀ p, v.port p = s.port p := fun p => by rw [← hv, setLatch_port]; rfl
  have time : v.timebase = s.timebase := by rw [← hv, setLatch_timebase]; rfl
  have accesses : v.accesses = s.accesses ++ [⟨.rxStatus, .write [(s.statusSlot 14,
      rxStatusWord { s.rx with state := .error, reason := x } s.timebase)], s.timebase, false,
      !s.link.busMaster, x == .statusWrite⟩] := by rw [← hv, setLatch_accesses]; rfl
  obtain ⟨frame, decided⟩ := decideAll_decides v
  refine ⟨?_, ?_, fun p => (decided p).moved (port p) rx time rfl fun _ => id, ?_⟩
  · rw [frame.eq]; exact rx
  · obtain ⟨y, mem, isIt⟩ := setLatch_mem (s := issueErrorStatus .rxStatus
      (State.rxStatusXfer { s with rx := { s.rx with state := .error, reason := x } }) (x == .statusWrite)
      { s with rx := { s.rx with state := .error, reason := x } }) .ringError x.code
    exact ⟨y, frame.latches y (by rw [← hv]; exact mem), isIt⟩
  · rw [frame.eq]
    exact accesses

end Sys2Proof.Machine

namespace Sys2Proof.Proofs

open Sys2Proof.Machine

/-- Settles O18: a notify that is no count error stores its count; one for no ring is stray. -/
theorem notifiesAreStored : Obligations.NotifiesAreStored := by
  refine ⟨fun s side index c out => ?_, fun s c live => ?_⟩
  · dsimp only
    have stray : ∀ i j : Nat, ¬ Live s → notify false i c s = setStray s ∧ notify true j c s = setStray s :=
      fun i j off => ⟨notify_stray (not_live_of_awake out off), notify_stray (not_live_of_awake out off)⟩
    refine ⟨fun no => ?_, fun off => ⟨?_, ?_, fun q => ?_, fun n => ?_, ?_⟩, fun q absent => ?_, fun n absent => ?_,
      fun absent => ?_⟩
    · rw [exec_strayNotify _ _ _ out]
      rcases no with off | ⟨rfl, high⟩ | ⟨rfl, high⟩
      · rw [notify_stray (not_live_of_awake out off)]; rfl
      · rw [notify_no_posted_ring high]; rfl
      · rw [notify_no_consumed_ring high]; rfl
    · rw [exec_mqPostedNotify _ out, (stray 0 0 off).1]; rfl
    · rw [exec_mcqConsumedNotify _ out, (stray 0 0 off).2]; rfl
    · rw [exec_rqPostedNotify _ _ out, (stray _ 0 off).1]; rfl
    · rw [exec_cqConsumedNotify _ _ out, (stray 0 _ off).2]; rfl
    · rw [exec_receiveRingPostedNotify _ out, (stray _ 0 off).1]; rfl
    · rw [exec_rqPostedNotify _ _ out]
      cases live : s.live
      · rw [notify_stray live]; rfl
      · rw [notify_rq live, takeRqNotify_absent absent]; rfl
    · rw [exec_cqConsumedNotify _ _ out]
      cases live : s.live
      · rw [notify_stray live]; rfl
      · rw [notify_cq live, takeCqNotify_absent absent]; rfl
    · rw [exec_receiveRingPostedNotify _ out]
      cases live : s.live
      · rw [notify_stray live]; rfl
      · rw [notify_rx live, takeRxNotify_absent absent]; rfl
  · have out : Awake s := live.1
    have on := live_of_live live
    refine ⟨fun fits => ?_, fun fits => ?_, fun q stored => ?_, fun n stored => ?_, fun stored => ?_,
      fun run fits => ?_⟩
    · rw [exec_mqPostedNotify _ out, notify_mq on, takeMqNotify_stored fits]; rfl
    · rw [exec_mcqConsumedNotify _ out, notify_mcq on, takeMcqNotify_stored fits]; rfl
    · rw [exec_rqPostedNotify _ _ out, notify_rq on, takeRqNotify_stored stored]
    · rw [exec_cqConsumedNotify _ _ out, notify_cq on, takeCqNotify_stored stored]
    · rw [exec_receiveRingPostedNotify _ out, notify_rx on]
      rcases stored with e | ⟨run, none, fits⟩
      · rw [takeRxNotify_of_error e]
      · rw [takeRxNotify_running run fits]
        exact congrArg Host.Outcome.next (decideAll_of_none none)
    · obtain ⟨frame, decided⟩ := decideAll_decides { s with rx := { s.rx with posted := c } }
      exact ⟨_, by rw [exec_receiveRingPostedNotify _ out, notify_rx on, takeRxNotify_running run fits], frame.eq,
        decided⟩

/-- Settles O19: a count error at each ring. -/
theorem countErrors : Obligations.CountErrors := by
  intro s c live
  have out : Awake s := live.1
  have on := live_of_live live
  refine ⟨fun run high => ?_, fun canWrite high => ⟨fun run => ?_, fun halted => ?_⟩, fun q run high => ?_,
    fun n run high => ?_, fun run high => ?_⟩
  · have start : (s.modMgmt fun m => { m with mqPosted := c }).link.ctrl = .running := run
    have taken := haltTaken (f := .mqCount) (.inr start)
    refine ⟨_, by rw [exec_mqPostedNotify _ out, notify_mq on, takeMqNotify_error run high], ?_, ?_, ?_, ?_, taken⟩
    · rw [taken.1]
    · rw [taken.1]
    · rw [mgmt_enterHalted (.inr start)]; rfl
    · rw [mgmt_enterHalted (.inr start)]; rfl
  · have start : (s.modMgmt fun m => { m with mcqConsumed := c }).link.ctrl = .running := run
    have taken := haltTaken (f := .mcqCount) (.inr start)
    refine ⟨_, by rw [exec_mcqConsumedNotify _ out, notify_mcq on, takeMcqNotify_error canWrite high, if_pos run],
      ?_, ?_, ?_, taken⟩
    · rw [taken.1]
    · rw [taken.1]
    · rw [mgmt_enterHalted (.inr start)]; rfl
  · rw [exec_mcqConsumedNotify _ out, notify_mcq on, takeMcqNotify_error canWrite high,
      if_neg (by rw [halted]; nofun)]
    rfl
  · have run' : ((s.modRq q fun x => { x with posted := c }).rq q).state = .running := by simpa using run
    obtain ⟨own, others, latched, whole⟩ := rqEnterError_spec (x := .count) run'
    refine ⟨_, by rw [exec_rqPostedNotify _ _ out, notify_rq on, takeRqNotify_error run high], ?_, latched, whole,
      fun r other => ?_⟩
    · rw [own]; simp
    · rw [others r other, rq_modRq, if_neg other.symm]
  · have run' : ((s.modCq n fun x => { x with consumed := c }).cq n).state = .running := by simpa using run
    obtain ⟨ctx, latched, without, -, -⟩ := cqEnterError_running (reason := .count) run'
    refine ⟨_, by rw [exec_cqConsumedNotify _ _ out, notify_cq on, takeCqNotify_error run high], ?_, ?_, ?_, ?_,
      latched, without⟩
    · rw [ctx]
    · rw [ctx]
    · rw [ctx]; simp
    · rw [ctx]; simp
  · obtain ⟨ring, latched, decided, -⟩ :=
      rxEnterError_running (s := { s with rx := { s.rx with posted := c } }) (x := .count) run
    refine ⟨_, by rw [exec_receiveRingPostedNotify _ out, notify_rx on, takeRxNotify_error run high], ring, latched,
      fun p => ?_⟩
    rw [ring]
    exact decided p

end Sys2Proof.Proofs
end

section
/-! SUPPORT. The failing end of an access, whatever ends it (R185): told by the command of its kind, by the
timeout, or by the loss of bus mastering. From it the statements BusMasteringChanges and AccessesTimeOut. -/

namespace Sys2Proof.Machine

variable {r s t : State} {a : Access} {rest : List Access} {k : Nat}

/-! ### The failing end as the row of its kind tells it -/

/-- An access that fails by the command of its kind fails as `accessFails` says. -/
theorem endAccess_fails {f : Access → Bool} {got : Nat} {g : Access → Bool → State → State}
    {kind : AccessKind → Bool} (out : Awake s) (hf : ∀ b, f b = kind b.kind) (h : InFlight kind k s a rest)
    (told : ∀ v, g a false v = failAccess a v) :
    awake s (fun s => endAccess f k false got g s) = accessFails (s.inFlight rest) a := by
  rw [awake_of_awake out, endAccess_inFlight hf h fun c => by cases c]
  unfold accessFails
  rw [told]
  rfl

theorem InFlight.kindOf {kind : AccessKind → Bool} (h : InFlight kind k s a rest) : kind a.kind = true := by
  obtain ⟨pre, post, -, -, isIt, -⟩ := h
  exact isIt

/-! What the kinds of the status word writes and of the entry reads say of an access. -/

theorem isMqStatus_eq (b : Access) : isMqStatus b = (b.kind == .mqStatus true || b.kind == .mqStatus false) := by
  unfold isMqStatus
  cases b.kind
  case mqStatus start => cases start <;> rfl
  all_goals rfl

theorem isMcqStatus_eq (b : Access) : isMcqStatus b = (b.kind == .mcqStatus true || b.kind == .mcqStatus false) := by
  unfold isMcqStatus
  cases b.kind
  case mcqStatus start => cases start <;> rfl
  all_goals rfl

theorem rqEntry_of_kind {x : AccessKind} (h : (match x with | .rqEntry _ => true | _ => false) = true) :
    ∃ q, x = .rqEntry q := by
  cases x
  case rqEntry q => exact ⟨q, rfl⟩
  all_goals cases h

theorem cqStatus_of_kind {x : AccessKind} {n : CqId}
    (h : (match x with | .cqStatus i _ => i == n | _ => false) = true) : ∃ why, x = .cqStatus n why := by
  cases x
  case cqStatus i why => exact ⟨why, by rw [eq_of_beq (a := i) (b := n) h]⟩
  all_goals cases h

/-- A fetch that fails brings no bytes. -/
theorem fetchEnd_failed (d : List Byte) (s : State) : fetchEnd false d s = fetchEnd false [] s := by
  unfold fetchEnd
  simp only [Bool.false_eq_true, if_false]

theorem cmdReadEnd_failed (d : List Byte) (s : State) : cmdReadEnd false d s = cmdReadEnd false [] s := by
  unfold cmdReadEnd
  simp only [Bool.not_false, if_true]

/-- A failed MQ entry read halts a RUNNING controller (R169). -/
theorem mqEntry_fails (kind : a.kind = .mqEntry) (run : s.link.ctrl = .running) :
    failAccess a s = enterHalted .mqFetch (s.modMgmt fun m => { m with reading := false }) := by
  unfold failAccess mqEntryEnd
  rw [kind]
  dsimp only
  rw [if_pos (by exact run)]
  rfl

section
variable (out : Awake s)
include out

theorem headerReadEnd_fails {h : Vector Byte 64} (fly : InFlight (· == .header) 0 s a rest) :
    exec (.headerReadEnd false h) s = .next (accessFails (s.inFlight rest) a) :=
  congrArg Host.Outcome.next (endAccess_fails out (fun _ => rfl) fly fun v => by
    unfold failAccess; rw [eq_of_beq fly.kindOf]; rfl)

theorem controllerStatusWordWriteEnd_fails (fly : InFlight (· == .controllerStatus) k s a rest) :
    exec (.controllerStatusWordWriteEnd k false) s = .next (accessFails (s.inFlight rest) a) :=
  congrArg Host.Outcome.next (endAccess_fails out (fun _ => rfl) fly fun v => by
    unfold failAccess; rw [eq_of_beq fly.kindOf])

theorem mqEntryReadEnd_fails {e : Vector Byte 64} (fly : InFlight (· == .mqEntry) 0 s a rest) :
    exec (.mqEntryReadEnd false e) s = .next (accessFails (s.inFlight rest) a) :=
  congrArg Host.Outcome.next (endAccess_fails out (fun _ => rfl) fly fun v => by
    unfold failAccess; rw [eq_of_beq fly.kindOf]; rfl)

theorem mqStatusWordWriteEnd_fails (fly : InFlight (fun x => x == .mqStatus true || x == .mqStatus false) 0 s a rest) :
    exec (.mqStatusWordWriteEnd false) s = .next (accessFails (s.inFlight rest) a) :=
  congrArg Host.Outcome.next (endAccess_fails out isMqStatus_eq fly fun v => by
    rcases Bool.or_eq_true_iff.mp fly.kindOf with e | e <;> simp [failAccess, Access.atStart, eq_of_beq e])

theorem mcqRecordWriteEnd_fails (fly : InFlight (· == .mcqRecord) 0 s a rest) :
    exec (.mcqRecordWriteEnd false) s = .next (accessFails (s.inFlight rest) a) :=
  congrArg Host.Outcome.next (endAccess_fails out (fun _ => rfl) fly fun v => by
    unfold failAccess; rw [eq_of_beq fly.kindOf])

theorem mcqStatusWordWriteEnd_fails (fly : InFlight (fun x => x == .mcqStatus true || x == .mcqStatus false) 0 s a rest) :
    exec (.mcqStatusWordWriteEnd false) s = .next (accessFails (s.inFlight rest) a) :=
  congrArg Host.Outcome.next (endAccess_fails out isMcqStatus_eq fly fun v => by
    rcases Bool.or_eq_true_iff.mp fly.kindOf with e | e <;> simp [failAccess, Access.atStart, eq_of_beq e])

theorem rqEntryReadEnd_fails {e : Vector Byte 64} (fly : InFlight (fun x => match x with | .rqEntry _ => true | _ => false) 0 s a rest) :
    exec (.rqEntryReadEnd false e) s = .next (accessFails (s.inFlight rest) a) :=
  congrArg Host.Outcome.next (endAccess_fails out (fun _ => rfl) fly fun v => by
    obtain ⟨q, e⟩ := rqEntry_of_kind fly.kindOf
    unfold failAccess; rw [e]; rfl)

theorem rqStatusWordWriteEnd_fails {q : RqId} (fly : InFlight (· == .rqStatus q) k s a rest) :
    exec (.rqStatusWordWriteEnd q k false) s = .next (accessFails (s.inFlight rest) a) :=
  congrArg Host.Outcome.next (endAccess_fails out (fun _ => rfl) fly fun v => by
    unfold failAccess; rw [eq_of_beq fly.kindOf])

theorem stagingReadEnd_fails {p : PortId} {d : List Byte} (fly : InFlight (· == .staging p) 0 s a rest) :
    exec (.stagingReadEnd p false d) s = .next (accessFails (s.inFlight rest) a) :=
  congrArg Host.Outcome.next (endAccess_fails out (fun _ => rfl) fly fun v => by
    unfold failAccess; rw [eq_of_beq fly.kindOf]; rfl)

theorem drainingWriteEnd_fails {p : PortId} (fly : InFlight (· == .draining p) 0 s a rest) :
    exec (.drainingWriteEnd p false) s = .next (accessFails (s.inFlight rest) a) :=
  congrArg Host.Outcome.next (endAccess_fails out (fun _ => rfl) fly fun v => by
    unfold failAccess; rw [eq_of_beq fly.kindOf])

theorem recordWriteEnd_fails (fly : InFlight (· == .cqRecord) 0 s a rest) :
    exec (.recordWriteEnd false) s = .next (accessFails (s.inFlight rest) a) :=
  congrArg Host.Outcome.next (endAccess_fails out (fun _ => rfl) fly fun v => by
    unfold failAccess; rw [eq_of_beq fly.kindOf])

theorem cqStatusWordWriteEnd_fails {n : CqId} (fly : InFlight (fun x => match x with | .cqStatus i _ => i == n | _ => false) k s a rest) :
    exec (.cqStatusWordWriteEnd n k false) s = .next (accessFails (s.inFlight rest) a) :=
  congrArg Host.Outcome.next (endAccess_fails out (fun _ => rfl) fly fun v => by
    obtain ⟨why, e⟩ := cqStatus_of_kind fly.kindOf
    simp [failAccess, Access.occasion, e])

theorem receiveFetchEnd_fails {d : Vector Byte 16} (fly : InFlight (· == .rxEntry) 0 s a rest) :
    exec (.receiveFetchEnd false d) s = .next (accessFails (s.inFlight rest) a) :=
  congrArg Host.Outcome.next (endAccess_fails out (fun _ => rfl) fly fun v => by
    unfold failAccess; rw [eq_of_beq fly.kindOf]; exact fetchEnd_failed _ _)

theorem receiveStatusWordWriteEnd_fails (fly : InFlight (· == .rxStatus) k s a rest) :
    exec (.receiveStatusWordWriteEnd k false) s = .next (accessFails (s.inFlight rest) a) :=
  congrArg Host.Outcome.next (endAccess_fails out (fun _ => rfl) fly fun v => by
    unfold failAccess; rw [eq_of_beq fly.kindOf])

theorem targetDrainEnd_fails {p : PortId} (fly : InFlight (· == .targetDrain p) 0 s a rest) :
    exec (.targetDrainEnd p false) s = .next (accessFails (s.inFlight rest) a) :=
  congrArg Host.Outcome.next (endAccess_fails out (fun _ => rfl) fly fun v => by
    unfold failAccess; rw [eq_of_beq fly.kindOf])

end

/-- The access the command in hand waits for fails as its block says (R170). -/
theorem commandHostAccessEnd_fails {d : List Byte} (out : Awake s)
    (fly : ∃ pre post, s.accesses = pre ++ a :: post ∧ rest = pre ++ post ∧ a.forCommand = true ∧
      ∀ b ∈ pre, b.forCommand = false)
    (h : a.kind = .cmdRead ∨ a.kind = .cmdWrite ∨ a.kind = .rxStatus ∨ (∃ q, a.kind = .rqStatus q) ∨
      ∃ n why, a.kind = .cqStatus n why) :
    exec (.commandHostAccessEnd false d) s = .next (accessFails (s.inFlight rest) a) := by
  obtain ⟨pre, post, whole, others, mine, before⟩ := fly
  have popped : popAccess isCommandAccess 0 s.accesses = some (a, rest) :=
    popAccess_iff.mpr ⟨pre, post, whole, others, mine, List.countP_eq_zero.mpr fun b hb => by
      simp [isCommandAccess, before b hb]⟩
  have told : ∀ v, commandAccessEnd d a false v = failAccess a v := by
    intro v
    unfold commandAccessEnd failAccess
    rcases h with e | e | e | ⟨q, e⟩ | ⟨n, why, e⟩ <;> rw [e]
    exact cmdReadEnd_failed d v
  have ended : awake s (fun s => endAccess isCommandAccess 0 false d.length
      (fun a ok s => commandAccessEnd d a ok s) s) = accessFails (s.inFlight rest) a := by
    rw [awake_of_awake out]
    unfold endAccess accessFails
    rw [popped]
    simp only [Bool.false_and, Bool.false_eq_true, if_false]
    rw [told] <;> rfl
  exact congrArg Host.Outcome.next ended

/-- Past its time the access fails, whatever it is for; before that nothing happens (R185). -/
theorem accessTimeout_fails (out : Awake s) (fly : InFlight (fun _ => true) k s a rest)
    (h : Config.accessLimit ≤ s.since a.issuedAt) :
    exec (.accessTimeout k) s = .next (accessFails (s.inFlight rest) a) := by
  obtain ⟨pre, post, whole, others, -, count⟩ := fly
  have popped : popAccess (fun _ => true) k s.accesses = some (a, rest) :=
    popAccess_iff.mpr ⟨pre, post, whole, others, rfl, count⟩
  refine (congrArg Host.Outcome.next (awake_of_awake out)).trans ?_
  unfold timeoutAccess
  rw [popped]
  dsimp only
  rw [if_pos h]
  rfl

theorem accessTimeout_early (out : Awake s) (fly : InFlight (fun _ => true) k s a rest)
    (h : s.since a.issuedAt < Config.accessLimit) : exec (.accessTimeout k) s = .next s := by
  obtain ⟨pre, post, whole, others, -, count⟩ := fly
  have popped : popAccess (fun _ => true) k s.accesses = some (a, rest) :=
    popAccess_iff.mpr ⟨pre, post, whole, others, rfl, count⟩
  refine (congrArg Host.Outcome.next (awake_of_awake out)).trans ?_
  unfold timeoutAccess
  rw [popped]
  dsimp only
  rw [if_neg (Nat.not_le.mpr h)]

theorem accessFails_heeded (h : s.link.ctrl ≠ .stopping) : accessFails s a = failAccess a s := by
  unfold accessFails
  rw [if_pos (heeds_of_ne h)]

end Sys2Proof.Machine

namespace Sys2Proof.Proofs

open Sys2Proof.Machine

/-- Settles O21: the timeout is the failing end of the access it ends. -/
theorem accessesTimeOut : Obligations.AccessesTimeOut := by
  intro s k a rest out fly
  refine ⟨fun early => accessTimeout_early out fly early, fun late => ?_⟩
  have fails := accessTimeout_fails out fly late
  have byKind : ∀ {c : Instr}, exec c s = .next (accessFails (s.inFlight rest) a) →
      exec (.accessTimeout k) s = exec c s := fun h => fails.trans h.symm
  refine ⟨fun e => ?_, fun e starting => ?_, fun e run => ?_, fun e run => ?_,
    fun h is => byKind (headerReadEnd_fails out is),
    fun j is => byKind (controllerStatusWordWriteEnd_fails out is), fun e is => byKind (mqEntryReadEnd_fails out is),
    fun is => byKind (mqStatusWordWriteEnd_fails out is), fun is => byKind (mcqRecordWriteEnd_fails out is),
    fun is => byKind (mcqStatusWordWriteEnd_fails out is), fun e is => byKind (rqEntryReadEnd_fails out is),
    fun q j is => byKind (rqStatusWordWriteEnd_fails out is), fun p d is => byKind (stagingReadEnd_fails out is),
    fun p is => byKind (drainingWriteEnd_fails out is), fun is => byKind (recordWriteEnd_fails out is),
    fun n j is => byKind (cqStatusWordWriteEnd_fails out is), fun d is => byKind (receiveFetchEnd_fails out is),
    fun j is => byKind (receiveStatusWordWriteEnd_fails out is), fun p is => byKind (targetDrainEnd_fails out is),
    fun d is kinds => byKind (commandHostAccessEnd_fails out is kinds)⟩
  · rw [fails]
    unfold accessFails failAccess
    rw [e]
    exact congrArg Host.Outcome.next (ite_self _)
  · have start : (s.inFlight rest).link.ctrl = .starting := starting
    have taken := haltTaken (f := .setupFault) (.inl start)
    refine ⟨enterHalted .setupFault (s.inFlight rest), ?_, by rw [taken.1], by rw [taken.1], taken⟩
    rw [fails, accessFails_heeded (by rw [start]; nofun)]
    unfold failAccess headerEnd
    rw [e]
    dsimp only
    rw [if_pos start]
    rfl
  · have start : (s.inFlight rest).link.ctrl = .running := run
    have start' : ((s.inFlight rest).modMgmt fun m => { m with reading := false }).link.ctrl = .running := run
    have taken := haltTaken (f := .mqFetch) (.inr start')
    refine ⟨_, by rw [fails, accessFails_heeded (by rw [start]; nofun), mqEntry_fails e start], ?_, ?_, ?_, ?_, taken⟩
    · rw [taken.1]
    · rw [taken.1]
    · rw [mgmt_enterHalted (.inr start')]; rfl
    · rw [mgmt_enterHalted (.inr start')]; rfl
  · have start : (s.inFlight rest).link.ctrl = .running := run
    have taken := haltTaken (f := .mcqWrite) (.inr start)
    refine ⟨enterHalted .mcqWrite (s.inFlight rest), ?_, by rw [taken.1], by rw [taken.1], ?_, taken⟩
    · rw [fails, accessFails_heeded (by rw [start]; nofun)]
      unfold failAccess mqStatusEnd mgmtWriteFails
      rw [e]
      dsimp only
      rw [if_pos (by rfl), if_pos start]
    · rw [mgmt_enterHalted (.inr start)]
      simp [HaltFault.keepsEvents]

end Sys2Proof.Proofs
end

section
/-! SUPPORT. What a failing end issues (`Goes`): whatever block is told, the accesses in flight stay and those it
issues fail while bus mastering is disabled (R185). From it the statement BusMasteringChanges. -/

namespace Sys2Proof.Machine

variable {r s t : State} {p : PortId} {k : SlotId} {n : CqId}

/-- Between `s` and `t` bus mastering stays, no access has ended, and those issued fail when it is
disabled. -/
structure Goes (s t : State) : Prop where
  master : t.link.busMaster = s.link.busMaster
  issues : Issues s t

theorem Goes.same : Goes s s := ⟨rfl, .same⟩
theorem Goes.trans (h : Goes r s) (g : Goes s t) : Goes r t :=
  ⟨g.master.trans h.master, h.issues.trans g.issues h.master⟩

theorem Goes.of_eq (link : t.link = s.link) (accesses : t.accesses = s.accesses) : Goes s t :=
  ⟨by rw [link], .of_eq accesses⟩
theorem Passed.goes (h : Passed s t) : Goes s t := ⟨by rw [h.eq], h.accesses⟩
theorem Released.goes (h : Released s t) : Goes s t := h.passed.goes
theorem TargetSide.goes (h : TargetSide p s t) : Goes s t := h.passed.goes
theorem LatchFrame.goes (h : LatchFrame s t) : Goes s t := .of_eq (by rw [h.eq]) (by rw [h.eq])
theorem HaltFrame.goes (h : HaltFrame s t) : Goes s t := ⟨by rw [h.eq], h.accesses⟩

theorem goes_issue (kind : AccessKind) (x : Xfer) (c : Bool) (h : Goes r s) : Goes r (issue kind x c s) :=
  h.trans ⟨rfl, .one rfl rfl⟩

theorem goes_modTxn (k : SlotId) (f : Txn → Txn) (h : Goes r s) : Goes r (s.modTxn k f) :=
  h.trans (passed_modTxn k f .same).goes
theorem goes_modPort (f : Port → Port) (h : Goes r s) : Goes r (s.modPort p f) := h.trans (.of_eq rfl rfl)

theorem goes_completeIf (x : CmdPhase) (st : Status) (a : Word) (h : Goes r s) : Goes r (completeIf x st a s) :=
  h.trans (.of_eq (by rw [completeIf_eq]) (by rw [completeIf_eq]))

theorem goes_completeCommand (st : Status) (a b : Word) (h : Goes r s) : Goes r (completeCommand st a b s) := by
  refine h.trans ?_
  unfold completeCommand
  split <;> exact .of_eq rfl rfl

/-! ### The end of service -/

theorem goes_completeInstance (i : TrigId) (x : Result) (area : List Byte) (h : Goes r s) :
    Goes r (completeInstance i x area s) := by
  have limit : ∀ v : State, Goes v (applyFailLimit i x v) := by
    intro v
    unfold applyFailLimit
    split
    · have disarmed : Goes v (disarm i v) := by
        unfold disarm
        dsimp only
        split <;> exact .of_eq rfl rfl
      exact disarmed.trans (latchFrame_setLatch _ _).goes
    · exact .same
  have load : ∀ v : State, Goes v (loadHoldoff i v) := by
    intro v
    unfold loadHoldoff
    split <;> exact .of_eq rfl rfl
  have check : ∀ v : State, Goes v (checkInstances v) := by
    intro v
    unfold checkInstances
    split
    · split
      · split
        · exact .same
        · exact goes_completeCommand _ _ _ .same
      · exact .same
    · exact .same
  have done : Goes s (s.modTrigger i fun E => E.completed x area) := .of_eq rfl rfl
  exact (((h.trans done).trans (limit _)).trans (load _)).trans (check _)

theorem goes_post (h : Goes r s) : Goes r (post p k s) :=
  (goes_modTxn k _ h).trans (passed_offerService .same).goes

theorem goes_leaveList_finalize (h : Goes r s) : Goes r (leaveList p (finalize k s)) :=
  (h.trans (released_finalize k s).goes).trans (passed_leaveList .same).goes

theorem goes_serviceEnd (h : Goes r s) : Goes r (serviceEnd p k s) := by
  unfold serviceEnd
  split
  · exact h
  · split
    · dsimp only
      split
      · exact goes_post (goes_modTxn _ _ (goes_completeInstance _ _ _ h))
      · exact goes_leaveList_finalize (goes_modTxn _ _ (goes_completeInstance _ _ _ h))
    · split
      · exact goes_leaveList_finalize h
      · exact goes_post h

theorem goes_fixOutside (x : Result) (d : Byte) (h : Goes r s) : Goes r (fixOutside p k x d s) :=
  goes_serviceEnd (goes_modTxn _ _ (goes_modPort _ h))

theorem goes_withService {f : SlotId → Txn → State → State} (hf : ∀ k t, Goes s (f k t s)) :
    Goes s (withService p f s) := by
  unfold withService
  split
  · split
    · exact hf _ _
    · exact .same
  · exact .same

theorem goes_stagingEnd_failed (p : PortId) (d : List Byte) (s : State) : Goes s (stagingEnd p false d s) :=
  goes_withService fun k t => by
    split
    · split
      · exact goes_fixOutside _ _ .same
      · exact goes_fixOutside _ _ .same
    · exact .same

theorem goes_drainingEnd_failed (p : PortId) (s : State) : Goes s (drainingEnd p false s) :=
  goes_withService fun k t => by
    split
    · exact goes_serviceEnd (goes_modTxn _ _ .same)
    · exact .same

/-! ### Rings and queues -/

theorem goes_rqEnterError (q : RqId) (x : RqReason) (h : Goes r s) : Goes r (rqEnterError q x s) :=
  h.trans (passed_rqEnterError q x s).goes

theorem goes_endTurn (q : RqId) (b : Bool) (h : Goes r s) : Goes r (endTurn q b s) := by
  refine h.trans ?_
  unfold endTurn
  dsimp only
  refine Goes.trans ?_ (released_deletionEnd q _).goes
  split
  · exact goes_issue _ _ _ (.of_eq rfl rfl)
  · exact .of_eq rfl rfl

theorem goes_rqEntryEnd_failed (e : List Byte) (s : State) : Goes s (rqEntryEnd false e s) := by
  unfold rqEntryEnd
  split
  · rw [if_neg (by simp)]
    unfold entryReadFails
    dsimp only
    split
    · exact goes_endTurn _ _ (goes_rqEnterError _ _ (.of_eq rfl rfl))
    · exact goes_endTurn _ _ (.of_eq rfl rfl)
  · exact .same

theorem goes_statusWordEnded (a : Access) (h : Goes r s) : Goes r (statusWordEnded a s) := by
  unfold statusWordEnded
  split
  · exact goes_completeIf _ _ _ h
  · exact h

theorem goes_rqStatusEnd (q : RqId) (a : Access) (ok : Bool) (s : State) : Goes s (rqStatusEnd q a ok s) := by
  unfold rqStatusEnd
  refine goes_statusWordEnded a ?_
  split
  · exact .same
  · exact goes_rqEnterError _ _ .same

theorem goes_rxEnterError (x : RxReason) (s : State) : Goes s (rxEnterError x s) := by
  unfold rxEnterError
  split
  · dsimp only
    refine Goes.trans ?_ (decideAll_decides _).1.goes
    exact ⟨by rw [setLatch_link]; rfl, .one (by rw [setLatch_accesses]; rfl) rfl⟩
  · exact .same

theorem goes_rxStatusEnd (a : Access) (ok : Bool) (s : State) : Goes s (rxStatusEnd a ok s) := by
  unfold rxStatusEnd
  refine goes_statusWordEnded a ?_
  split
  · exact .same
  · exact goes_rxEnterError _ _

theorem goes_fetchEnd_failed (d : List Byte) (s : State) : Goes s (fetchEnd false d s) := by
  unfold fetchEnd
  split
  · exact .same
  · dsimp only
    rw [if_neg (by simp)]
    refine Goes.trans ?_ (decideAll_decides _).1.goes
    refine Goes.trans ?_ (goes_rxEnterError _ _)
    unfold wantAgain
    split <;> exact .of_eq rfl rfl

theorem goes_cqDeclared (n : CqId) (x : CqReason) (s : State) : Goes s (cqDeclared n x s) := by
  unfold cqDeclared
  dsimp only
  refine Goes.trans ?_ (latchFrame_setLatch _ _).goes
  have quiet : ∀ v : State, Goes v (if 0 < (v.cq n).unannounced then raiseCq n v
      else v.modCq n fun c => { c with timer := none }) := by
    intro v
    split <;> exact .of_eq rfl rfl
  refine Goes.trans ?_ (quiet _)
  split
  · exact .of_eq rfl rfl
  · exact ⟨rfl, .one rfl rfl⟩

theorem goes_handOut (s : State) : Goes s (handOut s) := by
  have given : Goes s (placesGiven s) := .of_eq rfl rfl
  exact given.trans (passed_handOut s).goes

theorem goes_discardQueue (n : CqId) (s : State) : Goes s (discardQueue n s) := by
  have taken : Goes s
    { s with comp := { s.comp with holding := s.comp.holding.filter fun e => e.cq != n } } := .of_eq rfl rfl
  exact taken.trans (passed_discardQueue n s).goes

theorem goes_cqEnterError (n : CqId) (x : CqReason) (h : Goes r s) : Goes r (cqEnterError n x s) := by
  refine h.trans ?_
  by_cases run : (s.cq n).state = .running
  · rw [cqEnterError_eq run]
    exact ((((goes_cqDeclared n x s).trans (passed_failBound n _).goes).trans (goes_discardQueue n _)).trans
      (goes_handOut _)).trans (passed_foldl (passed_releaseWaiting n) blockOrder .same).goes
  · rw [cqEnterError_left run]
    exact .same

theorem goes_recordEnd_failed (s : State) : Goes s (recordEnd false s) := by
  unfold recordEnd
  split
  · rw [if_neg (by simp)]
    dsimp only
    refine Goes.trans ?_ (released_discard _ _).goes
    split
    · exact goes_cqEnterError _ _ (.of_eq rfl rfl)
    · exact goes_issue _ _ _ (.of_eq rfl rfl)
  · exact .same

theorem goes_cqStatusEnd_failed (n : CqId) (why : CqStatusFor) (a : Access) (s : State) :
    Goes s (cqStatusEnd n why a false s) := by
  unfold cqStatusEnd
  split
  · unfold recordStatusEnd
    split
    · exact goes_cqEnterError _ _ (.of_eq rfl rfl)
    · exact .same
  · split
    · exact .same
    · exact goes_cqEnterError _ _ .same
  · exact goes_statusWordEnded a (goes_cqEnterError _ _ .same)
  · exact goes_statusWordEnded a (.of_eq rfl rfl)

/-! ### The management unit and the controller -/

theorem goes_enterHalted (f : HaltFault) (h : Goes r s) : Goes r (enterHalted f s) := by
  refine h.trans ?_
  by_cases run : s.link.ctrl = .starting ∨ s.link.ctrl = .running
  · have declared : Goes s (haltDeclared f s) := ⟨rfl, .one rfl rfl⟩
    exact declared.trans (haltFrame_enterHalted run).goes
  · obtain ⟨not₁, not₂⟩ := not_or.mp run
    rw [enterHalted_left not₁ not₂]
    exact .same

theorem goes_mgmtWriteFails (h : Goes r s) : Goes r (mgmtWriteFails s) := by
  unfold mgmtWriteFails
  split
  · exact goes_enterHalted _ h
  · exact h.trans (.of_eq rfl rfl)

theorem goes_mcqRecordEnd_failed (s : State) : Goes s (mcqRecordEnd false s) := by
  unfold mcqRecordEnd
  split
  · exact goes_mgmtWriteFails (.of_eq rfl rfl)
  · exact .same

theorem goes_mcqStatusEnd_failed (b : Bool) (s : State) : Goes s (mcqStatusEnd b false s) := by
  unfold mcqStatusEnd
  dsimp only
  rw [if_pos (by rfl)]
  refine goes_mgmtWriteFails ?_
  split <;> exact .of_eq rfl rfl

theorem goes_headerEnd_failed (d : List Byte) (s : State) : Goes s (headerEnd false d s) := by
  unfold headerEnd
  split
  · exact goes_enterHalted _ .same
  · exact .same

theorem goes_mqEntryEnd_failed (d : List Byte) (s : State) : Goes s (mqEntryEnd false d s) := by
  unfold mqEntryEnd
  dsimp only
  split
  · exact goes_enterHalted _ (.of_eq rfl rfl)
  · exact .of_eq rfl rfl

theorem goes_cmdReadEnd_failed (d : List Byte) (s : State) : Goes s (cmdReadEnd false d s) := by
  unfold cmdReadEnd
  split
  · split
    · exact goes_completeCommand _ _ _ .same
    · exact .same
  · exact .same

/-! ### Any failing end -/

theorem goes_failAccess (a : Access) (s : State) : Goes s (failAccess a s) := by
  unfold failAccess
  split
  case h_1 => exact goes_headerEnd_failed _ _
  case h_2 => exact .same
  case h_3 => exact goes_mqEntryEnd_failed _ _
  case h_4 => exact goes_mgmtWriteFails .same
  case h_5 => exact goes_mcqRecordEnd_failed _
  case h_6 => exact goes_mcqStatusEnd_failed _ _
  case h_7 => exact goes_cmdReadEnd_failed _ _
  case h_8 => exact goes_completeIf _ _ _ .same
  case h_9 => exact goes_rqEntryEnd_failed _ _
  case h_10 => exact goes_rqStatusEnd _ _ _ _
  case h_11 => exact goes_stagingEnd_failed _ _ _
  case h_12 => exact goes_drainingEnd_failed _ _
  case h_13 => exact goes_recordEnd_failed _
  case h_14 => exact goes_cqStatusEnd_failed _ _ _ _
  case h_15 => exact goes_fetchEnd_failed _ _
  case h_16 => exact goes_rxStatusEnd _ _ _
  case h_17 p _ => exact (side_drainEnded (p := p) TargetSide.same).goes

theorem goes_foldl_accessFails (l : List Access) (h : Goes r s) : Goes r (l.foldl accessFails s) := by
  induction l generalizing s with
  | nil => exact h
  | cons a l ih =>
    refine ih (h.trans ?_)
    unfold accessFails
    split
    · exact goes_failAccess a s
    · exact .same

/-! ### Bus mastering (R185) -/

theorem exec_busMasteringChange (on : Bool) (out : Awake s) :
    exec (.busMasteringChange on) s = .next (setBusMaster on s) := congrArg Host.Outcome.next (awake_of_awake out)

/-- The part when bus mastering has just been disabled, with nothing in flight yet told. -/
def masterOff (s : State) : State :=
  { s with link := { s.link with busMaster := false }, accesses := [] }

theorem setBusMaster_off (s : State) : setBusMaster false s = s.accesses.foldl accessFails (masterOff s) := rfl

/-- The command of its kind ends an access at the front of those in flight as failed. -/
theorem exec_failingEnd {c : Instr} {a : Access} {u : State} (out : Awake u) (h : FailingEnd a c) :
    exec c (u.inFlight (a :: u.accesses)) = .next (accessFails u a) := by
  have fly : ∀ {kind : AccessKind → Bool}, kind a.kind = true →
      InFlight kind 0 (u.inFlight (a :: u.accesses)) a u.accesses :=
    fun isIt => ⟨[], u.accesses, rfl, rfl, isIt, rfl⟩
  have out' : Awake (u.inFlight (a :: u.accesses)) := out
  unfold FailingEnd at h
  split at h
  case h_1 => obtain ⟨rfl, e⟩ := h; exact headerReadEnd_fails out' (fly (by simp [e]))
  case h_2 => obtain ⟨rfl, rfl, e⟩ := h; exact controllerStatusWordWriteEnd_fails out' (fly (by simp [e]))
  case h_3 => obtain ⟨rfl, e⟩ := h; exact mqEntryReadEnd_fails out' (fly (by simp [e]))
  case h_4 => obtain ⟨rfl, b, e⟩ := h; exact mqStatusWordWriteEnd_fails out' (fly (by cases b <;> simp [e]))
  case h_5 => obtain ⟨rfl, e⟩ := h; exact mcqRecordWriteEnd_fails out' (fly (by simp [e]))
  case h_6 => obtain ⟨rfl, b, e⟩ := h; exact mcqStatusWordWriteEnd_fails out' (fly (by cases b <;> simp [e]))
  case h_7 =>
    obtain ⟨rfl, mine, kinds⟩ := h
    exact commandHostAccessEnd_fails out' ⟨[], u.accesses, rfl, rfl, mine, fun _ hb => by cases hb⟩ kinds
  case h_8 => obtain ⟨rfl, q, e⟩ := h; exact rqEntryReadEnd_fails out' (fly (by rw [e]))
  case h_9 => obtain ⟨rfl, rfl, e⟩ := h; exact rqStatusWordWriteEnd_fails out' (fly (by simp [e]))
  case h_10 => obtain ⟨rfl, e⟩ := h; exact stagingReadEnd_fails out' (fly (by simp [e]))
  case h_11 => obtain ⟨rfl, e⟩ := h; exact drainingWriteEnd_fails out' (fly (by simp [e]))
  case h_12 => obtain ⟨rfl, e⟩ := h; exact recordWriteEnd_fails out' (fly (by simp [e]))
  case h_13 => obtain ⟨rfl, rfl, why, e⟩ := h; exact cqStatusWordWriteEnd_fails out' (fly (by simp [e]))
  case h_14 => obtain ⟨rfl, e⟩ := h; exact receiveFetchEnd_fails out' (fly (by simp [e]))
  case h_15 => obtain ⟨rfl, rfl, e⟩ := h; exact receiveStatusWordWriteEnd_fails out' (fly (by simp [e]))
  case h_16 => obtain ⟨rfl, e⟩ := h; exact targetDrainEnd_fails out' (fly (by simp [e]))
  case h_17 => exact h.elim

end Sys2Proof.Machine

namespace Sys2Proof.Proofs

open Sys2Proof.Machine

/-- Settles O20: the accesses in flight fail in the order of issue, each as the row of its kind. -/
theorem busMasteringChanges : Obligations.BusMasteringChanges := by
  intro s out
  refine ⟨exec_busMasteringChange true out, fun none => ?_, ?_, fun before a c u whole fails told => ?_,
    fun a one kind run => ?_⟩
  · rw [exec_busMasteringChange false out, setBusMaster_off]
    simp only [masterOff, none, List.foldl_nil]
  · have goes := goes_foldl_accessFails s.accesses (Goes.same (s := masterOff s))
    obtain ⟨l, issued, doomed⟩ := goes.issues
    refine ⟨_, exec_busMasteringChange false out, goes.master, fun a ha => doomed a ?_⟩
    rw [setBusMaster_off, issued] at ha
    exact ha
  · have out' : Awake (s.inFlight before) := out
    rw [exec_busMasteringChange false out', Host.Outcome.next.injEq] at told
    have awake : Awake u := by
      have link := (within_foldl_accessFails before (Within.same (s := masterOff s))).link.linkReset
      rw [← told]
      exact link.trans out
    rw [exec_failingEnd awake fails, exec_busMasteringChange false out, setBusMaster_off, whole, List.foldl_append,
      ← told]
    rfl
  · have run' : (masterOff s).link.ctrl = .running := run
    have run'' : ((masterOff s).modMgmt fun m => { m with reading := false }).link.ctrl = .running := run
    have halts : setBusMaster false s =
        enterHalted .mqFetch ((masterOff s).modMgmt fun m => { m with reading := false }) := by
      rw [setBusMaster_off, one, List.foldl_cons, List.foldl_nil, accessFails_heeded (by rw [run']; nofun),
        mqEntry_fails kind run']
    have taken := haltTaken (f := .mqFetch) (.inr run'')
    refine ⟨_, by rw [exec_busMasteringChange false out, halts], by rw [taken.1], by rw [taken.1], ?_, ?_⟩
    · rw [mgmt_enterHalted (.inr run'')]; rfl
    · rw [mgmt_enterHalted (.inr run'')]; rfl

end Sys2Proof.Proofs
end

section
/-! SUPPORT. The management rings (R166 to R173, R184), step by step. From them the statements MqEntryIsTaken and
McqRecordsAreWritten. -/

namespace Sys2Proof.Machine

variable {s t : State} {a : Access} {rest : List Access} {b : Bool}

/-! ### The management queue (R169) -/

theorem exec_mqEntryTake (run : Running s) : exec .mqEntryTake s = .next (takeMqEntry s) :=
  congrArg Host.Outcome.next (whenRunning_of_running run)

theorem ringOffers_iff (posted taken size : Half) :
    ringOffers posted taken size = true ↔ posted ≠ taken ∧ (posted - taken).toNat ≤ size.toNat := by
  simp [ringOffers]

/-- The MQ unit is free and an entry is posted (R169). -/
def Mgmt.offered (m : Mgmt) : Prop :=
  m.command = none ∧ m.due = none ∧ m.reading = false ∧ ringOffers m.mqPosted m.mqTaken m.mqSize = true

theorem takeMqEntry_of_offered (h : s.mgmt.offered) :
    takeMqEntry s = issue .mqEntry
      (.read [(ringAddr s.mgmt.mqBase s.mgmt.mqSize s.mgmt.mqTaken 64, 64)]) false
      (s.modMgmt fun m => { m with reading := true }) := by
  obtain ⟨command, due, reading, offers⟩ := h
  simp [takeMqEntry, command, due, reading, offers]

theorem takeMqEntry_of_not (h : ¬ s.mgmt.offered) : takeMqEntry s = s := by
  unfold takeMqEntry
  dsimp only
  rw [if_neg]
  intro c
  simp only [Bool.and_eq_true, Option.isNone_iff_eq_none, Bool.not_eq_true'] at c
  obtain ⟨⟨⟨command, due⟩, reading⟩, offers⟩ := c
  exact h ⟨command, due, reading, offers⟩

theorem exec_mqEntryReadEnd {ok : Bool} {e : Vector Byte 64} (out : Awake s) (on : s.link.ctrl ≠ .stopping)
    (fly : InFlight (· == .mqEntry) 0 s a rest) (ends : EndsAs a ok 64) :
    exec (.mqEntryReadEnd ok e) s = .next (mqEntryEnd ok e.toList (s.inFlight rest)) :=
  congrArg Host.Outcome.next (access_heeded out on (fun _ => rfl) fly ends)

theorem exec_mqStatusWordWriteEnd {ok : Bool} (out : Awake s) (on : s.link.ctrl ≠ .stopping)
    (fly : InFlight (fun k => k == .mqStatus true || k == .mqStatus false) 0 s a rest) (ends : EndsAs a ok 0) :
    exec (.mqStatusWordWriteEnd ok) s = .next (mqStatusEnd a.atStart ok (s.inFlight rest)) :=
  congrArg Host.Outcome.next (access_heeded out on isMqStatus_eq fly ends)

theorem atStart_of_mqStatus (h : a.kind = .mqStatus b) : a.atStart = b := by simp [Access.atStart, h]
theorem atStart_of_mcqStatus (h : a.kind = .mcqStatus b) : a.atStart = b := by simp [Access.atStart, h]

theorem mgmtWriteFails_running (run : s.link.ctrl = .running) :
    mgmtWriteFails s = enterHalted .mcqWrite s := by simp [mgmtWriteFails, run]
theorem mgmtWriteFails_left (h : s.link.ctrl ≠ .running) :
    mgmtWriteFails s = s.modMgmt fun m => { m with muted := true } := by simp [mgmtWriteFails, h]

theorem mcqOpen_of_running (run : s.link.ctrl = .running) : s.mcqOpen = true := by simp [State.mcqOpen, run]

/-- The command in hand goes on to a phase. -/
theorem setCommandPhase_of_command {e : List Byte} {x y : CmdPhase}
    (h : s.mgmt.command = some { entry := e, phase := x }) : setCommandPhase y s = waitsAt e y s := by
  simp [setCommandPhase, State.modMgmt, waitsAt, h]

/-! ### The management completion queue (R171, R184) -/

theorem heeds_of_sequence (h : a.kind.ofSequence = true) : s.heeds a = true := by simp [State.heeds, h]

theorem exec_mcqWriteSequence (out : Awake s) : exec .mcqWriteSequence s = .next (beginCompletion s) :=
  congrArg Host.Outcome.next (awake_of_awake out)

theorem exec_eventRecord (l : Latch) (out : Awake s) : exec (.eventRecord l) s = .next (beginEvent l s) :=
  congrArg Host.Outcome.next (awake_of_awake out)

theorem mcqReady_of (canWrite : s.mcqOpen = true) (idle : s.mgmt.sequence = .idle) (room : 0 < s.mcqFree) :
    s.mcqReady = true := by
  simp [State.mcqReady, canWrite, idle, room]

/-- A latch of those set in the same microsecond as the first is among the earliest. -/
theorem find_earliest {pre post : List SetLatch} {x : SetLatch}
    (h : ∀ y ∈ pre, y.time = x.time ∧ y.latch ≠ x.latch) :
    (earliest (pre ++ x :: post)).find? (fun y => y.latch == x.latch) = some x := by
  have found : ∀ (time : Word), x.time = time → (∀ y ∈ pre, y.time = time ∧ y.latch ≠ x.latch) →
      ((pre ++ x :: post).takeWhile fun y => y.time == time).find? (fun y => y.latch == x.latch) = some x := by
    intro time same others
    induction pre with
    | nil => simp [same]
    | cons y pre ih =>
      obtain ⟨first, rest⟩ := List.forall_mem_cons.mp others
      simp only [List.cons_append, List.takeWhile_cons, first.1, beq_self_eq_true, if_true, List.find?_cons,
        beq_eq_false_iff_ne.mpr first.2]
      exact ih (fun z hz => h z (List.mem_cons_of_mem _ hz)) rest
  cases pre with
  | nil => exact found x.time rfl h
  | cons y pre =>
    have first := (h y (List.mem_cons_self ..)).1
    exact found y.time first.symm fun z hz => ⟨(h z hz).1.trans first.symm, (h z hz).2⟩

theorem exec_mcqRecordWriteEnd {ok : Bool} (out : Awake s) (heeds : s.heeds a = true)
    (fly : InFlight (· == .mcqRecord) 0 s a rest) (ends : EndsAs a ok 0) :
    exec (.mcqRecordWriteEnd ok) s = .next (mcqRecordEnd ok (s.inFlight rest)) :=
  congrArg Host.Outcome.next (by
    rw [awake_of_awake out, endAccess_inFlight (f := isKind .mcqRecord) (fun _ => rfl) fly ends, if_pos heeds])

theorem exec_mcqStatusWordWriteEnd {ok : Bool} (out : Awake s) (heeds : s.heeds a = true)
    (fly : InFlight (fun k => k == .mcqStatus true || k == .mcqStatus false) 0 s a rest) (ends : EndsAs a ok 0) :
    exec (.mcqStatusWordWriteEnd ok) s = .next (mcqStatusEnd a.atStart ok (s.inFlight rest)) :=
  congrArg Host.Outcome.next (by
    rw [awake_of_awake out, endAccess_inFlight isMcqStatus_eq fly ends, if_pos heeds])

theorem mcqStatusEnd_failed :
    mcqStatusEnd false false s = mgmtWriteFails (s.modMgmt fun m => { m with sequence := .idle }) := rfl
theorem mcqStatusEnd_failed_start : mcqStatusEnd true false s = mgmtWriteFails s := rfl

end Sys2Proof.Machine

namespace Sys2Proof.Proofs

open Sys2Proof.Machine

/-- Settles O22: the MQ unit's three steps. -/
theorem mqEntryIsTaken : Obligations.MqEntryIsTaken := by
  intro s a rest ok e run
  have out : Awake s := run.1
  have on : s.link.ctrl ≠ .stopping := by rw [run.2]; nofun
  have run' : (s.inFlight rest).link.ctrl = .running := run.2
  refine ⟨fun command due reading posted fits => ?_, fun busy => ?_, fun fly ends => ⟨fun success => ?_, fun failed => ?_⟩,
    fun d fly ends => ⟨fun success kind command => ?_, fun success kind => ?_, fun failed => ?_⟩⟩
  · rw [exec_mqEntryTake run, takeMqEntry_of_offered ⟨command, due, reading, (ringOffers_iff ..).mpr ⟨posted, fits⟩⟩]
    rfl
  · rw [exec_mqEntryTake run, takeMqEntry_of_not]
    rintro ⟨command, due, reading, offers⟩
    rcases busy with h | h | h | h
    · exact h command
    · exact h due
    · rw [reading] at h; cases h
    · exact ((ringOffers_iff ..).mp offers).1 h
  · rw [exec_mqEntryReadEnd out on fly ends, success]
    unfold mqEntryEnd
    dsimp only
    rw [if_pos (by exact run'), if_pos rfl]
    rfl
  · have run'' : ((s.inFlight rest).modMgmt fun m => { m with reading := false }).link.ctrl = .running := run'
    have taken := haltTaken (f := .mqFetch) (.inr run'')
    refine ⟨enterHalted .mqFetch ((s.inFlight rest).modMgmt fun m => { m with reading := false }), ?_,
      by rw [taken.1], by rw [taken.1], ?_, taken⟩
    · rw [exec_mqEntryReadEnd out on fly ends, failed]
      unfold mqEntryEnd
      dsimp only
      rw [if_pos (by exact run'), if_neg (by simp)]
    · rw [mgmt_enterHalted (.inr run'')]; rfl
  · rw [exec_mqStatusWordWriteEnd out on fly ends, success, atStart_of_mqStatus kind]
    have waits : (s.inFlight rest).commandAt .mqStatus = true := by
      have held : (s.inFlight rest).mgmt.command = some { entry := d, phase := .mqStatus } := command
      simp [State.commandAt, held]
    unfold mqStatusEnd
    rw [if_neg (by simp), if_neg (by simp), if_pos waits, setCommandPhase_of_command (by exact command)]
    rfl
  · rw [exec_mqStatusWordWriteEnd out on fly ends, success, atStart_of_mqStatus kind]
    unfold mqStatusEnd
    rw [if_neg (by simp), if_pos rfl, if_pos (mcqOpen_of_running run')]
    rfl
  · have taken := haltTaken (f := .mcqWrite) (.inr run')
    refine ⟨enterHalted .mcqWrite (s.inFlight rest), ?_, by rw [taken.1], by rw [taken.1], taken⟩
    rw [exec_mqStatusWordWriteEnd out on fly ends, failed]
    unfold mqStatusEnd
    rw [if_pos (by rfl), mgmtWriteFails_running run']

/-- Settles O23: the MCQ unit's three steps. -/
theorem mcqRecordsAreWritten : Obligations.McqRecordsAreWritten := by
  intro s a rest out
  dsimp only
  have record : InFlight (· == .mcqRecord) 0 s a rest → s.heeds a = true := fun fly =>
    heeds_of_sequence (by rw [eq_of_beq fly.kindOf]; rfl)
  have status : a.kind = .mcqStatus false → s.heeds a = true := fun kind =>
    heeds_of_sequence (by rw [kind]; rfl)
  have goes : s.mcqOpen = true ∨ s.link.ctrl = .stopping ∧ s.mgmt.muted = false →
      s.sequenceGoesOn = true := by
    rintro (canWrite | ⟨stops, speaks⟩)
    · simp [State.sequenceGoesOn, canWrite]
    · simp [State.sequenceGoesOn, stops, speaks]
  have recordFails : ∀ {completion}, InFlight (· == .mcqRecord) 0 s a rest → s.mgmt.sequence = .record completion →
      exec (.mcqRecordWriteEnd false) s =
        .next (mgmtWriteFails ((s.inFlight rest).modMgmt fun m => { m with sequence := .idle })) := by
    intro completion fly seq
    rw [exec_mcqRecordWriteEnd out (record fly) fly fun c => by cases c]
    unfold mcqRecordEnd
    rw [show (s.inFlight rest).mgmt.sequence = .record completion from seq]
    rfl
  refine ⟨fun canWrite idle room => ⟨fun record due => ?_, fun pre post x due latches before => ?_⟩,
    fun completion fly seq => ⟨fun goesOn ends => ?_, fun run => ?_, fun stopped => ?_⟩,
    fun fly => ⟨fun ends => ⟨fun kind => ?_, fun kind => ?_⟩, fun run => ?_, fun stopped kind => ?_⟩⟩
  · rw [exec_mcqWriteSequence out]
    unfold beginCompletion
    rw [due]
    dsimp only
    rw [if_pos (mcqReady_of canWrite idle room), ← due]
    rfl
  · have others : (s.mgmt.latches.filter fun y => y.latch != x.latch) =
        s.mgmt.latches.filter fun y => y.latch ≠ x.latch :=
      List.filter_congr fun y _ => by by_cases e : y.latch = x.latch <;> simp [e]
    rw [exec_eventRecord _ out]
    unfold beginEvent
    rw [latches, find_earliest before, ← latches]
    dsimp only
    rw [if_pos (by rw [due, mcqReady_of canWrite idle room]; rfl), ← others]
    rfl
  · rw [exec_mcqRecordWriteEnd out (record fly) fly ends]
    unfold mcqRecordEnd
    rw [show (s.inFlight rest).mgmt.sequence = .record completion from seq]
    dsimp only
    rw [if_pos rfl, if_pos (by exact goes goesOn)]
    rfl
  · have run' : ((s.inFlight rest).modMgmt fun m => { m with sequence := .idle }).link.ctrl = .running := run
    have taken := haltTaken (f := .mcqWrite) (.inr run')
    have mgmt := mgmt_enterHalted (f := .mcqWrite) (.inr run')
    refine ⟨_, by rw [recordFails fly seq, mgmtWriteFails_running run'], by rw [taken.1], by rw [taken.1], ?_, ?_, ?_,
      taken⟩
    · rw [mgmt]; exact Bool.or_true _
    · rw [mgmt]; rfl
    · rw [mgmt]; rfl
  · rw [recordFails fly seq, mgmtWriteFails_left (by exact stopped)]
    rfl
  · have ended : awake s (fun s => endAccess isMcqStatus 0 true 0 (fun a ok s => mcqStatusEnd a.atStart ok s) s) =
        s.inFlight rest := by
      rw [awake_of_awake out, endAccess_inFlight isMcqStatus_eq fly ends, atStart_of_mcqStatus kind]
      exact ite_self _
    exact congrArg Host.Outcome.next ended
  · refine ⟨raiseIsr 0 ((s.inFlight rest).modMgmt fun m => { m with sequence := .idle }), ?_, rfl, rfl, rfl⟩
    rw [exec_mcqStatusWordWriteEnd out (status kind) fly ends, atStart_of_mcqStatus kind]
    rfl
  · have heeded : s.heeds a = true := heeds_of_ne (by rw [run]; nofun)
    have failed := exec_mcqStatusWordWriteEnd (ok := false) out heeded fly fun c => by cases c
    cases start : a.atStart
    · have run' : ((s.inFlight rest).modMgmt fun m => { m with sequence := .idle }).link.ctrl = .running := run
      have taken := haltTaken (f := .mcqWrite) (.inr run')
      have mgmt := mgmt_enterHalted (f := .mcqWrite) (.inr run')
      refine ⟨_, by rw [failed, start, mcqStatusEnd_failed, mgmtWriteFails_running run'], by rw [taken.1],
        by rw [taken.1], ?_, ?_, taken⟩
      · rw [mgmt]; exact Bool.or_true _
      · rw [mgmt]; rfl
    · have run' : (s.inFlight rest).link.ctrl = .running := run
      have taken := haltTaken (f := .mcqWrite) (.inr run')
      have mgmt := mgmt_enterHalted (f := .mcqWrite) (.inr run')
      refine ⟨_, by rw [failed, start, mcqStatusEnd_failed_start, mgmtWriteFails_running run'], by rw [taken.1],
        by rw [taken.1], ?_, ?_, taken⟩
      · rw [mgmt]; exact Bool.or_true _
      · rw [mgmt]; rfl
  · rw [exec_mcqStatusWordWriteEnd (ok := false) out (status kind) fly (fun c => by cases c),
      atStart_of_mcqStatus kind, mcqStatusEnd_failed, mgmtWriteFails_left (by exact stopped)]
    rfl

end Sys2Proof.Proofs
end

section
/-! SUPPORT. The command rows that check and act at once (R170, R174 to R181): which row acts, the checks of its
number and ring fields, and its effect. From them the statements CommandsGoByTheirOpcode to QueuesAreCreated,
ConfigurePort, EnableAndRestartPort, SetReceiveRing, ImagesAndReplies and DefineTriggerAndSetTick. -/

namespace Sys2Proof.Machine

variable {s t : State} {e : List Byte} {op : Byte} {f : List Byte → State → State} {c : Instr} {x : Status}

/-! ### Rows of commands (R169, R170) -/

/-- A row acts as its function does on the entry in hand. -/
theorem Executing.runs (h : Executing op e s) (row : exec c s = .next (runCommand op f s))
    (does : f e s = t) : exec c s = .next t := by
  rw [row, runCommand_of_executing h, does]

theorem Executing.answers (h : Executing op e s) (row : exec c s = .next (runCommand op f s))
    (does : f e s = reply x s) : Answers c e x s := by
  have held := h.2.1
  exact h.runs row (does.trans (reply_of_command held))

theorem Executing.held (h : Executing op e s) : s.mgmt.command = some { entry := e, phase := .execute } := h.2.1

/-- A row acts only on a command of its own opcode. -/
theorem runCommand_of_not (h : ∀ e, ¬ Executing op e s) : runCommand op f s = s := by
  unfold runCommand whenRunning awake
  by_cases reset : s.link.linkReset = true
  · rw [if_pos reset]
  by_cases run : s.link.ctrl = .running
  · rw [if_neg reset]
    dsimp only
    rw [if_pos run]
    split
    next d held =>
      refine if_neg fun isIt => ?_
      simp only [Bool.and_eq_true, decide_eq_true_eq, beq_iff_eq] at isIt
      obtain ⟨phase, isOp⟩ := isIt
      refine h d.entry ⟨⟨by simpa using reset, run⟩, ?_, isOp⟩
      rw [held, ← phase]
    · rfl
  · rw [if_neg reset]
    exact if_neg run

/-! ### Answers after a change of another block -/

/-! ### Ring fields -/

theorem aligned64_iff (a : Addr) : aligned64 a = true ↔ a.toNat % 64 = 0 := by
  unfold aligned64
  rw [beq_iff_eq, ← BitVec.toNat_inj]
  simp

/-- The sizes of a ring of up to 4096 entries. -/
theorem sizeOk_4096_iff (n : Nat) :
    sizeOk n 4 4096 = true ↔ n ∈ [4, 8, 16, 32, 64, 128, 256, 512, 1024, 2048, 4096] := by
  simp only [sizeOk, Bool.and_eq_true, decide_eq_true_eq, List.contains_eq_mem]
  refine ⟨fun h => h.2, fun h => ⟨?_, h⟩⟩
  simp only [List.mem_cons, List.not_mem_nil, or_false] at h
  omega

theorem sizeOk_1024_iff (n : Nat) :
    sizeOk n 4 1024 = true ↔ n ∈ [4, 8, 16, 32, 64, 128, 256, 512, 1024] := by
  simp only [sizeOk, Bool.and_eq_true, decide_eq_true_eq, List.contains_eq_mem, List.mem_cons, List.not_mem_nil,
    or_false]
  omega

end Sys2Proof.Machine

namespace Sys2Proof.Proofs

open Sys2Proof.Machine

/-- Settles O24: an unknown opcode is answered, and every row looks for its own opcode. -/
theorem commandsGoByTheirOpcode : Obligations.CommandsGoByTheirOpcode := by
  refine ⟨fun s e run held unknown => ?_, fun s alerts x hx none => ?_⟩
  · have isUnknown : unknownOpcode (opcode e) = true := by
      rcases unknown with h | h <;> simp [unknownOpcode, h]
    have row : exec .unknownCommand s = .next (whenRunning s fun s =>
        match s.mgmt.command with
        | some c => if c.phase = .execute && unknownOpcode (opcode c.entry) then reply .unknownCommand s else s
        | none => s) := rfl
    rw [Answers, row, whenRunning_of_running run, held]
    simp only [isUnknown, Bool.and_true, decide_true, if_true]
    rw [reply_of_command held]
  · have same : ∀ {op : Byte} {f : List Byte → State → State} {c : Instr}, (∀ e, ¬ Executing op e s) →
        exec c s = .next (runCommand op f s) → exec c s = .next s :=
      fun none row => by rw [row, runCommand_of_not none]
    fin_cases hx <;> exact same none rfl

/-- Settles O25: the record's bytes at the moment of execution go to the command's buffer. -/
theorem recordsGoToTheBuffer : Obligations.RecordsGoToTheBuffer := by
  intro s e
  have goes : ∀ bytes, s.mgmt.command = some { entry := e, phase := .execute } →
      writeBuffer e bytes s = (waitsAt e .hostAccess s).issued .cmdWrite (.write [(rd64 e 16, bytes)]) true :=
    fun bytes held => by
      unfold writeBuffer
      rw [setCommandPhase_of_command held]
      rfl
  refine ⟨fun h => h.runs (f := fun e s => writeBuffer e (identificationRecord s.mgmt) s) rfl (goes _ h.held),
    fun h => ⟨fun beyond => ?_, fun t named => ?_⟩, fun h => ⟨fun beyond => ?_, fun p named => ?_⟩⟩
  · exact h.answers (f := queryTrigger) rfl (by simp [queryTrigger, asId_of_le beyond])
  · exact h.runs (f := queryTrigger) rfl (by rw [queryTrigger, asId_of_toNat_eq named]; exact goes _ h.held)
  · exact h.answers (f := readStatistics) rfl (by simp [readStatistics, asId_of_le beyond])
  · exact h.runs (f := readStatistics) rfl (by rw [readStatistics, asId_of_toNat_eq named]; exact goes _ h.held)

end Sys2Proof.Proofs
end

section
/-! SUPPORT. The rows that create and set up rings, ports, images, replies and triggers (R107, R25, R108, R93,
R101, R144, R152, R154, R160, R175 to R181): the statements QueuesAreCreated, DeleteCompletionQueue,
ConfigurePort, EnableAndRestartPort, SetReceiveRing, ImagesAndReplies and DefineTriggerAndSetTick. -/

namespace Sys2Proof.Machine

variable {s t : State} {e : List Byte} {x : CmdPhase}

/-! ### Status words of a context just set -/

theorem writeCqStatus_modCq (n : CqId) (why : CqStatusFor) (c : Bool) (f : CqCtx → CqCtx) (s : State) :
    writeCqStatus n why c (s.modCq n f) = (s.modCq n f).issued (.cqStatus n why)
      (.write [(s.statusSlot (10 + n.val), cqStatusWord (f (s.cq n)) s.timebase)]) c := by
  simp [writeCqStatus, issue, State.issued, State.cqStatusXfer, State.statusSlot]

theorem writeRqStatus_modRq (q : RqId) (c : Bool) (f : RqCtx → RqCtx) (s : State) :
    writeRqStatus q c (s.modRq q f) = (s.modRq q f).issued (.rqStatus q)
      (.write [(s.statusSlot (2 + q.val), rqStatusWord (f (s.rq q)) s.timebase)]) c := by
  simp [writeRqStatus, issue, State.issued, State.rqStatusXfer, State.statusSlot]

/-- The phase of the command does not matter to an access issued. -/
theorem setCommandPhase_issued {kind : AccessKind} {y : Xfer} {c : Bool} {ph : CmdPhase}
    (held : s.mgmt.command = some { entry := e, phase := ph }) :
    setCommandPhase x (s.issued kind y c) = (waitsAt e x s).issued kind y c := by
  rw [setCommandPhase_of_command (e := e) (x := ph) (by exact held)]
  rfl

theorem readBuffer_of_command {n : Nat} {ph : CmdPhase} (held : s.mgmt.command = some { entry := e, phase := ph }) :
    readBuffer e n s = (waitsAt e .hostAccess s).issued .cmdRead (.read [(rd64 e 16, n)]) true := by
  unfold readBuffer
  rw [setCommandPhase_of_command held]
  rfl

/-! ### What names a completion queue (R108) -/

theorem mem_allRqs (q : RqId) : q ∈ allRqs := List.mem_finRange q
theorem mem_allTriggers (i : TrigId) : i ∈ allTriggers := List.mem_finRange i
theorem mem_allSlots (k : SlotId) : k ∈ allSlots := List.mem_finRange k

/-- Everything R108 lists. -/
theorem cqInUse_iff (s : State) (n : CqId) : s.cqInUse n = true ↔
    (∃ q, (s.rq q).state ≠ .absent ∧ (s.rq q).cq = n) ∨ (∃ p, (s.port p).cfg.rxCq = some n) ∨
      (∃ t, (s.trigger t).state ≠ .empty ∧ (s.trigger t).cq = n) ∨ (∃ h ∈ s.comp.holding, h.cq = n) ∨
      (∃ h, s.comp.writer = .record h ∧ h.cq = n) ∨ (∃ b, s.comp.writer = .status n b) ∨
      (∃ k t, s.txn k = some t ∧ t.state = .posting ∧ t.cq = n) ∨
      (∃ p, ∃ r ∈ (s.port p).tgt.records, r.receive.cq = n) ∨
      (∃ p m, ((s.port p).tgt.staging = .filling m ∨ (s.port p).tgt.staging = .draining m) ∧ m.buffer.cq = n) ∨
      (∃ p, s.rx.fetch = some (p, n)) ∨ ∃ r, s.rx.waiting = some r ∧ r.cq = n := by
  have writer : s.comp.writer.names n = true ↔
      (∃ h, s.comp.writer = .record h ∧ h.cq = n) ∨ ∃ b, s.comp.writer = .status n b := by
    cases s.comp.writer <;> simp [Writer.names]
  have slot : ∀ k, s.slotNames n k = true ↔ ∃ t, s.txn k = some t ∧ t.state = .posting ∧ t.cq = n := by
    intro k
    unfold State.slotNames
    cases s.txn k <;> simp
  have target : ∀ p, (s.port p).tgt.names n = true ↔ (∃ r ∈ (s.port p).tgt.records, r.receive.cq = n) ∨
      ∃ m, ((s.port p).tgt.staging = .filling m ∨ (s.port p).tgt.staging = .draining m) ∧ m.buffer.cq = n := by
    intro p
    unfold Target.names
    cases (s.port p).tgt.staging <;> simp
  have ring : s.rx.names n = true ↔
      (∃ p, s.rx.fetch = some (p, n)) ∨ ∃ r, s.rx.waiting = some r ∧ r.cq = n := by
    unfold RxRing.names
    rcases s.rx.fetch with _ | ⟨p, m⟩ <;> cases s.rx.waiting <;> simp
  unfold State.cqInUse
  simp only [Bool.or_eq_true, List.any_eq_true, writer, slot, target, ring, mem_allPorts, mem_allRqs,
    mem_allTriggers, mem_allSlots, true_and, Bool.and_eq_true, bne_iff_ne, beq_iff_eq, exists_or, or_assoc]

/-! ### CONFIGURE PORT's last check (R177) -/

section

variable {p : PortId} {c : Settings} (named : (byteAt e 8).toNat = p.val) (off : (s.port p).state = .off)
  (parsed : parseSettings e = some c) (slots : slotsOk c.slots = true) (images : imagesOk c.slots = true)
include named off parsed slots images

theorem configure_refused {st : Status} (h : rxCqStatus c s = some st) : configure e s = reply st s := by
  simp [configure, asId_of_toNat_eq named, off, parsed, slots, images, h]

theorem configure_accepted (h : rxCqStatus c s = none) :
    configure e s = reply .success (s.modPort p (Port.configured c)) := by
  simp [configure, asId_of_toNat_eq named, off, parsed, slots, images, h]

end

/-- The port a restart leaves, in its procedure or its idle wait (R101). -/
theorem restart_recovers (v : State) (p : PortId) :
    (if ((startRecovery p v).port p).cfg.recovery then startRecovery p v
      else (startRecovery p v).modPort p fun P => { P with recovery := .restartWait (startRecovery p v).timebase }) =
    v.modPort p fun P =>
      { P with
        state := .recovering, inStep := false, awaitAddr := false, sclDriven := false, sdaDriven := false,
        idleFrom := v.timebase, clockLowFrom := v.timebase, stuckDataFrom := v.timebase,
        recovery := if P.cfg.recovery then .waitScl v.timebase else .restartWait v.timebase } := by
  have started : startRecovery p v = v.modPort p fun P => { P with
      state := .recovering, inStep := false, awaitAddr := false, recovery := .waitScl v.timebase,
      sclDriven := false, sdaDriven := false, idleFrom := v.timebase, clockLowFrom := v.timebase,
      stuckDataFrom := v.timebase } := modPort_modPort ..
  have settings : ((startRecovery p v).port p).cfg = (v.port p).cfg := by rw [started]; simp
  rw [settings, started]
  split
  next recovers => exact modPort_congr p _ _ (by rw [if_pos recovers])
  next stays =>
    rw [modPort_modPort]
    exact modPort_congr p _ _ (by dsimp only; rw [if_neg stays]; rfl)

end Sys2Proof.Machine

namespace Sys2Proof.Proofs

open Sys2Proof.Machine

/-- Settles O26: the checks in their order, and the context written with its status word. -/
theorem queuesAreCreated : Obligations.QueuesAreCreated := by
  intro s e
  refine ⟨fun h => ⟨fun beyond => ?_, fun n named => ⟨fun used => ?_, fun absent => ⟨fun bad => ?_,
    fun base size batch => ?_⟩⟩⟩, fun h => ⟨fun beyond => ?_, fun q named => ⟨fun used => ?_, fun absent => ⟨fun bad => ?_,
    fun n bound base size low high => ⟨fun none => ?_, fun failed => ?_, fun run => ?_⟩⟩⟩⟩⟩
  · exact h.answers (f := createCq) rfl (by simp [createCq, asId_of_le beyond])
  · exact h.answers (f := createCq) rfl (by simp [createCq, asId_of_toNat_eq named, used])
  · refine h.answers (f := createCq) rfl ?_
    have refused : (!aligned64 (rd64 e 16) || !sizeOk (rd16 e 10).toNat 4 4096 || byteAt e 12 == 0) = true := by
      rw [Bool.or_eq_true, Bool.or_eq_true, Bool.not_eq_true', ← Bool.not_eq_true, aligned64_iff, Bool.not_eq_true',
        ← Bool.not_eq_true, sizeOk_4096_iff, beq_iff_eq, or_assoc]
      exact bad
    simp only [createCq, asId_of_toNat_eq named, absent, bne_self_eq_false, Bool.false_eq_true, if_false, refused,
      if_true]
  · refine h.runs (f := createCq) rfl ?_
    have fine : (!aligned64 (rd64 e 16) || !sizeOk (rd16 e 10).toNat 4 4096 || byteAt e 12 == 0) = false := by
      rw [(aligned64_iff _).mpr base, (sizeOk_4096_iff _).mpr size, beq_eq_false_iff_ne.mpr batch]
      rfl
    simp only [createCq, asId_of_toNat_eq named, absent, bne_self_eq_false, Bool.false_eq_true, if_false, fine]
    rw [writeCqStatus_modCq, setCommandPhase_issued (by exact h.held)]
    rfl
  · exact h.answers (f := createRq) rfl (by simp [createRq, asId_of_le beyond])
  · exact h.answers (f := createRq) rfl (by simp [createRq, asId_of_toNat_eq named, used])
  · refine h.answers (f := createRq) rfl ?_
    by_cases far : 4 ≤ (byteAt e 9).toNat
    · simp [createRq, asId_of_toNat_eq named, absent, asId_of_le far]
    · have bound : (byteAt e 9).toNat = (⟨(byteAt e 9).toNat, Nat.not_le.mp far⟩ : CqId).val := rfl
      have refused : (!aligned64 (rd64 e 16) || !sizeOk (rd16 e 10).toNat 4 4096 || byteAt e 12 == 0 ||
          decide (8 < (byteAt e 12).toNat)) = true := by
        rw [Bool.or_eq_true, Bool.or_eq_true, Bool.or_eq_true, Bool.not_eq_true', ← Bool.not_eq_true, aligned64_iff,
          Bool.not_eq_true', ← Bool.not_eq_true, sizeOk_4096_iff, beq_iff_eq, ← BitVec.toNat_inj, decide_eq_true_eq,
          or_assoc, or_assoc]
        exact bad.resolve_left far
      simp only [createRq, asId_of_toNat_eq named, absent, bne_self_eq_false, Bool.false_eq_true, if_false,
        asId_of_toNat_eq bound, refused, if_true]
  all_goals
    have fine : (!aligned64 (rd64 e 16) || !sizeOk (rd16 e 10).toNat 4 4096 || byteAt e 12 == 0 ||
        decide (8 < (byteAt e 12).toNat)) = false := by
      have weight : byteAt e 12 ≠ 0 := fun zero => by rw [zero] at low; cases low
      rw [(aligned64_iff _).mpr base, (sizeOk_4096_iff _).mpr size, beq_eq_false_iff_ne.mpr weight,
        decide_eq_false (Nat.not_lt.mpr high)]
      rfl
  · exact h.answers (f := createRq) rfl (by
      simp only [createRq, asId_of_toNat_eq named, absent, bne_self_eq_false, Bool.false_eq_true, if_false,
        asId_of_toNat_eq bound, fine, none, if_true])
  · exact h.answers (f := createRq) rfl (by
      have notAbsent : (s.cq n).state ≠ .absent := by rw [failed]; nofun
      have notRunning : ((s.cq n).state != .running) = true := by rw [failed]; rfl
      simp only [createRq, asId_of_toNat_eq named, absent, bne_self_eq_false, Bool.false_eq_true, if_false,
        asId_of_toNat_eq bound, fine, notAbsent, notRunning, if_true])
  · refine h.runs (f := createRq) rfl ?_
    simp only [createRq, asId_of_toNat_eq named, absent, bne_self_eq_false, Bool.false_eq_true, if_false,
      asId_of_toNat_eq bound, fine, run]
    rw [writeRqStatus_modRq, setCommandPhase_issued (by exact h.held)]
    rfl

/-- Settles O27: the queue named by nothing R108 lists goes to ABSENT. -/
theorem deleteCompletionQueue : Obligations.DeleteCompletionQueue := by
  intro s e h
  refine ⟨fun beyond => ?_, fun n named => ⟨fun absent => ?_, fun exists_ => ⟨fun used => ?_, fun free => ?_⟩⟩⟩
  · exact h.answers (f := deleteCq) rfl (by simp [deleteCq, asId_of_le beyond])
  · exact h.answers (f := deleteCq) rfl (by simp [deleteCq, asId_of_toNat_eq named, absent])
  · exact h.answers (f := deleteCq) rfl (by
      simp [deleteCq, asId_of_toNat_eq named, exists_, (cqInUse_iff s n).mpr used])
  · refine h.runs (f := deleteCq) rfl ?_
    have unused : s.cqInUse n = false := Bool.eq_false_iff.mpr fun used => free ((cqInUse_iff s n).mp used)
    simp only [deleteCq, asId_of_toNat_eq named, exists_, unused, Bool.false_eq_true, if_false]
    rw [writeCqStatus_modCq, setCommandPhase_issued (by exact h.held)]
    rfl

/-- Settles O29: the checks in their order, the receive CQ last, and the settings replaced. -/
theorem configurePort : Obligations.ConfigurePort := by
  intro s e h
  refine ⟨fun beyond => ?_, fun p named => ⟨fun on => ?_, fun off bad => ?_, fun c off parsed =>
    ⟨fun bad => ?_, fun slots images => ⟨fun unbound wants => ?_, fun n names absent => ?_, fun n names failed wants => ?_,
      fun fine => ?_⟩⟩⟩⟩
  · exact h.answers (f := configure) rfl (by simp [configure, asId_of_le beyond])
  · exact h.answers (f := configure) rfl (by simp [configure, asId_of_toNat_eq named, on])
  · exact h.answers (f := configure) rfl (by simp [configure, asId_of_toNat_eq named, off, bad])
  · exact h.answers (f := configure) rfl (by
      rcases bad with b | b <;> simp [configure, asId_of_toNat_eq named, off, parsed, b])
  · have wants' : (c.targetEnable && c.takesMessages) = true := wants
    exact h.answers (f := configure) rfl
      (configure_refused named off parsed slots images (by simp [rxCqStatus, unbound, wants']))
  · exact h.answers (f := configure) rfl
      (configure_refused named off parsed slots images (by simp [rxCqStatus, names, absent]))
  · have wants' : (c.targetEnable && c.takesMessages) = true := wants
    exact h.answers (f := configure) rfl
      (configure_refused named off parsed slots images (by simp [rxCqStatus, names, failed, wants']))
  · have accepted : rxCqStatus c s = none := by
      rcases fine with ⟨unbound, noMessages⟩ | ⟨n, names, run | ⟨failed, noMessages⟩⟩
      · have wants' : (c.targetEnable && c.takesMessages) = false := noMessages
        simp [rxCqStatus, unbound, wants']
      · simp [rxCqStatus, names, run]
      · have wants' : (c.targetEnable && c.takesMessages) = false := noMessages
        simp [rxCqStatus, names, failed, wants']
    exact h.runs (f := configure) rfl ((configure_accepted named off parsed slots images accepted).trans
      (reply_of_command (by exact h.held)))

/-- Settles O30: both rows check the number and the port's state. -/
theorem enableAndRestartPort : Obligations.EnableAndRestartPort := by
  intro s e
  refine ⟨fun h => ⟨fun beyond => ?_, fun p named => ⟨fun on => ?_, fun off => ?_⟩⟩,
    fun h => ⟨fun beyond => ?_, fun p named => ⟨fun other => ?_, fun faulted => ?_⟩⟩⟩
  · exact h.answers (f := enable) rfl (by simp [enable, asId_of_le beyond])
  · exact h.answers (f := enable) rfl (by simp [enable, asId_of_toNat_eq named, on])
  · refine h.runs (f := enable) rfl ?_
    simp only [enable, asId_of_toNat_eq named, off, bne_self_eq_false, Bool.false_eq_true, if_false]
    exact setCommandPhase_of_command (by exact h.held)
  · exact h.answers (f := restart) rfl (by simp [restart, asId_of_le beyond])
  · exact h.answers (f := restart) rfl (by simp [restart, asId_of_toNat_eq named, other])
  · refine h.runs (f := restart) rfl ?_
    simp only [restart, asId_of_toNat_eq named, faulted, bne_self_eq_false, Bool.false_eq_true, if_false]
    rw [setCommandPhase_of_command h.held]
    exact restart_recovers (waitsAt e (.port p .restart) s) p

/-- Settles O32: the fields, then what uses the ring, then the ring set. -/
theorem setReceiveRing : Obligations.SetReceiveRing := by
  intro s e h
  refine ⟨fun bad => ?_, fun base size => ⟨fun used => ?_, fun ports fetch waiting => ?_⟩⟩
  · refine h.answers (f := setRing) rfl ?_
    have refused : (!aligned64 (rd64 e 16) || !sizeOk (rd16 e 10).toNat 4 1024) = true := by
      rw [Bool.or_eq_true, Bool.not_eq_true', ← Bool.not_eq_true, aligned64_iff, Bool.not_eq_true',
        ← Bool.not_eq_true, sizeOk_1024_iff]
      exact bad
    simp only [setRing, refused, if_true]
  all_goals
    have fine : (!aligned64 (rd64 e 16) || !sizeOk (rd16 e 10).toNat 4 1024) = false := by
      simp [(aligned64_iff _).mpr base, (sizeOk_1024_iff _).mpr size]
    have inUse : (allPorts.any (fun p => (s.port p).state != .off && (s.port p).cfg.targetEnable) ||
        s.rx.fetch.isSome || s.rx.waiting.isSome) = true ↔
        (∃ p, (s.port p).state ≠ .off ∧ (s.port p).cfg.targetEnable = true) ∨ s.rx.fetch ≠ none ∨
          s.rx.waiting ≠ none := by
      simp only [Bool.or_eq_true, List.any_eq_true, mem_allPorts, true_and, Bool.and_eq_true, bne_iff_ne,
        Option.isSome_iff_ne_none, or_assoc]
  · refine h.answers (f := setRing) rfl ?_
    simp only [setRing, fine, Bool.false_eq_true, if_false, inUse.mpr used, if_true]
  · refine h.runs (f := setRing) rfl ?_
    have free : (allPorts.any (fun p => (s.port p).state != .off && (s.port p).cfg.targetEnable) ||
        s.rx.fetch.isSome || s.rx.waiting.isSome) = false := by
      refine Bool.eq_false_iff.mpr fun used => ?_
      rcases inUse.mp used with ⟨p, on, target⟩ | busy | busy
      · rcases ports p with off | passive
        · exact on off
        · rw [passive] at target; cases target
      · exact busy fetch
      · exact busy waiting
    simp only [setRing, fine, Bool.false_eq_true, if_false, free]
    rw [setCommandPhase_of_command (e := e) (x := .execute) (by exact h.held)]
    rfl

/-- Settles O33: the port and the slot, the slot's role, the length, and the bytes. -/
theorem imagesAndReplies : Obligations.ImagesAndReplies := by
  intro s e p o
  have noSlot : 4 ≤ (byteAt e 8).toNat ∨ 3 ≤ (byteAt e 9).toNat → portSlot e = none := by
    rintro (far | far)
    · simp [portSlot, asId_of_le far]
    · unfold portSlot
      rw [asId_of_le far]
      cases asId 4 (byteAt e 8) <;> rfl
  have slot : (byteAt e 8).toNat = p.val → (byteAt e 9).toNat = o.val → portSlot e = some (p, o) :=
    fun port own => by simp [portSlot, asId_of_toNat_eq port, asId_of_toNat_eq own]
  refine ⟨fun h => ⟨fun far => ?_, fun port own => ⟨fun other => ?_, fun role => ⟨fun bad => ?_, fun low high fits => ?_⟩⟩⟩,
    fun h => ⟨fun far => ?_, fun port own => ⟨fun other => ?_, fun role => ⟨fun bad => ?_, fun low high =>
      ⟨fun free => ?_, fun reading => ?_⟩⟩⟩⟩⟩
  · exact h.answers (f := writeImage) rfl (by simp [writeImage, noSlot far])
  · exact h.answers (f := writeImage) rfl (by simp [writeImage, slot port own, other])
  · refine h.answers (f := writeImage) rfl ?_
    have refused : (decide ((rd16 e 12).toNat = 0) || decide (256 < (rd16 e 12).toNat) ||
        decide (((s.port p).cfg.slots.get o).imageLen.toNat < (rd16 e 10).toNat + (rd16 e 12).toNat)) = true := by
      simpa [or_assoc] using bad
    simp only [writeImage, slot port own, role, bne_self_eq_false, Bool.false_eq_true, if_false, refused, if_true]
  · refine h.runs (f := writeImage) rfl ?_
    have fine : (decide ((rd16 e 12).toNat = 0) || decide (256 < (rd16 e 12).toNat) ||
        decide (((s.port p).cfg.slots.get o).imageLen.toNat < (rd16 e 10).toNat + (rd16 e 12).toNat)) = false := by
      rw [decide_eq_false (Nat.ne_of_gt low), decide_eq_false (Nat.not_lt.mpr high),
        decide_eq_false (Nat.not_lt.mpr fits)]
      rfl
    simp only [writeImage, slot port own, role, bne_self_eq_false, Bool.false_eq_true, if_false, fine]
    exact readBuffer_of_command h.held
  · exact h.answers (f := setReply) rfl (by simp [setReply, noSlot far])
  · exact h.answers (f := setReply) rfl (by simp [setReply, slot port own, other])
  · refine h.answers (f := setReply) rfl ?_
    have refused : (decide ((byteAt e 10).toNat = 0) || decide (32 < (byteAt e 10).toNat)) = true := by
      simpa using bad
    simp only [setReply, slot port own, role, bne_self_eq_false, Bool.false_eq_true, if_false, refused, if_true]
  all_goals
    have fine : (decide ((byteAt e 10).toNat = 0) || decide (32 < (byteAt e 10).toNat)) = false := by
      rw [decide_eq_false (Nat.ne_of_gt low), decide_eq_false (Nat.not_lt.mpr high)]
      rfl
    refine h.runs (f := setReply) rfl ?_
  · simp only [setReply, slot port own, role, bne_self_eq_false, Bool.false_eq_true, if_false, fine, free]
    exact reply_of_command (by exact h.held)
  · simp only [setReply, slot port own, role, bne_self_eq_false, Bool.false_eq_true, if_false, fine, reading, if_true]
    exact setCommandPhase_of_command (by exact h.held)

/-- Settles O34: the entry's state decides DEFINE TRIGGER, any ARMED entry and the value decide SET TICK. -/
theorem defineTriggerAndSetTick : Obligations.DefineTriggerAndSetTick := by
  intro s e
  have armed : s.someArmed = true ↔ ∃ t, (s.trigger t).state = .armed := by
    simp [State.someArmed, mem_allTriggers]
  refine ⟨fun h => ⟨fun far => ?_, fun t named => ⟨fun busy => ?_, fun idle free => ?_⟩⟩,
    fun h => ⟨fun some => ?_, fun idle => ⟨fun low => ?_, fun high => ?_⟩⟩⟩
  · exact h.answers (f := defineTrigger) rfl (by simp [defineTrigger, asId_of_le far])
  · exact h.answers (f := defineTrigger) rfl (by
      rcases busy with b | b <;> simp [defineTrigger, asId_of_toNat_eq named, b])
  · refine h.runs (f := defineTrigger) rfl ?_
    simp only [defineTrigger, asId_of_toNat_eq named, idle, free, decide_false, Bool.or_self, Bool.false_eq_true,
      if_false]
    exact readBuffer_of_command h.held
  · exact h.answers (f := setTick) rfl (by simp [setTick, armed.mpr some])
  all_goals
    have none : s.someArmed = false := Bool.eq_false_iff.mpr fun some => by
      obtain ⟨t, isArmed⟩ := armed.mp some
      exact idle t isArmed
  · exact h.answers (f := setTick) rfl (by simp [setTick, none, low])
  · refine h.runs (f := setTick) rfl ?_
    simp only [setTick, none, Bool.false_eq_true, if_false, Nat.not_lt.mpr high]
    exact reply_of_command (by exact h.held)

end Sys2Proof.Proofs
end

section
/-! SUPPORT. The check value (R16): each bit's step is linear and tells values apart, and so does a byte's. From it
the statement CheckValue. -/

namespace Sys2Proof.Machine

theorem crcBit_xor (a b : Byte) : crcBit (a ^^^ b) = crcBit a ^^^ crcBit b := by
  unfold crcBit
  rw [BitVec.msb_xor, BitVec.shiftLeft_xor_distrib]
  cases a.msb <;> cases b.msb
  · rfl
  · simp only [Bool.false_bne, if_true, if_false, BitVec.xor_assoc, Bool.false_eq_true]
  · simp only [Bool.bne_false, if_true, if_false, Bool.false_eq_true]
    rw [BitVec.xor_assoc, BitVec.xor_assoc, BitVec.xor_comm (b <<< 1)]
  · simp only [Bool.bne_true, Bool.not_true, if_true, if_false, Bool.false_eq_true]
    rw [BitVec.xor_assoc, BitVec.xor_comm 7, BitVec.xor_assoc, BitVec.xor_self, BitVec.xor_zero]

theorem crcByte_xor (a b c d : Byte) : crcByte (a ^^^ b) (c ^^^ d) = crcByte a c ^^^ crcByte b d := by
  have inner : a ^^^ b ^^^ (c ^^^ d) = (a ^^^ c) ^^^ (b ^^^ d) := by
    rw [BitVec.xor_assoc, BitVec.xor_assoc, ← BitVec.xor_assoc b c d, BitVec.xor_comm b c, BitVec.xor_assoc c b d]
  simp only [crcByte, inner, crcBit_xor]

theorem crcBit_eq_zero : ∀ a : Byte, crcBit a = 0 → a = 0 := by decide

theorem crcBit_injective {a b : Byte} (h : crcBit a = crcBit b) : a = b := by
  have zero : crcBit (a ^^^ b) = 0 := by rw [crcBit_xor, h, BitVec.xor_self]; rfl
  exact BitVec.xor_eq_zero_iff.mp (crcBit_eq_zero _ zero)

theorem crcByte_injective_left {a b c : Byte} (h : crcByte a c = crcByte b c) : a = b := by
  unfold crcByte at h
  have same := crcBit_injective (crcBit_injective (crcBit_injective (crcBit_injective (crcBit_injective
    (crcBit_injective (crcBit_injective (crcBit_injective h)))))))
  have apart : a ^^^ b = 0 := by
    rw [← BitVec.xor_zero (x := a ^^^ b), ← BitVec.xor_self (x := c), BitVec.xor_assoc, ← BitVec.xor_assoc b c c, ← same,
      BitVec.xor_assoc a c c, ← BitVec.xor_assoc, BitVec.xor_self, BitVec.xor_self, BitVec.xor_zero]
    rfl
  exact BitVec.xor_eq_zero_iff.mp apart

theorem crcByte_self (v : Byte) : crcByte v v = 0 := by
  simp only [crcByte, BitVec.xor_self]
  decide

theorem crcByte_injective_right {a b c : Byte} (h : crcByte c a = crcByte c b) : a = b := by
  refine crcByte_injective_left (c := c) ?_
  simpa only [crcByte, BitVec.xor_comm c] using h

theorem foldl_crcByte_injective (l : List Byte) {a b : Byte} (h : l.foldl crcByte a = l.foldl crcByte b) : a = b := by
  induction l generalizing a b with
  | nil => exact h
  | cons x l ih => exact crcByte_injective_left (ih h)

end Sys2Proof.Machine

namespace Sys2Proof.Proofs

open Sys2Proof.Machine

/-- Settles O60: a bit's step is linear and vanishes at 0 alone, so a byte's step is linear and injective in each
argument; a changed byte changes the value there, and the bytes behind it keep the difference. -/
theorem checkValue : Obligations.CheckValue := by
  refine ⟨crcByte_xor, fun l c => ?closes, fun pre post x y c same => ?tells⟩
  case closes =>
    rw [List.foldl_append]
    exact crcByte_self _
  case tells =>
    rw [List.foldl_append, List.foldl_append] at same
    exact crcByte_injective_right (foldl_crcByte_injective post same)

end Sys2Proof.Proofs
end

section
/-! SUPPORT. The end of an access the command in hand waits for (R170): the read bytes act, the command completes.
From it the statement CommandAccessEnds. -/

namespace Sys2Proof.Machine

variable {s : State} {e : List Byte} {a : Access} {rest : List Access} {data : List Byte} {ok : Bool}

/-- RUNNING, the block that waits for the command's access is told of its end. -/
theorem exec_commandHostAccessEnd (run : Running s) (ends : EndsAs a ok data.length)
    (fly : ∃ pre post, s.accesses = pre ++ a :: post ∧ rest = pre ++ post ∧ a.forCommand = true ∧
      ∀ b ∈ pre, b.forCommand = false) :
    exec (.commandHostAccessEnd ok data) s = .next (commandAccessEnd data a ok (s.inFlight rest)) := by
  obtain ⟨pre, post, whole, others, mine, before⟩ := fly
  have popped : popAccess isCommandAccess 0 s.accesses = some (a, rest) :=
    popAccess_iff.mpr ⟨pre, post, whole, others, mine, List.countP_eq_zero.mpr fun b hb => by
      simp [isCommandAccess, before b hb]⟩
  have heeded : (s.inFlight rest).heeds a = true := heeds_of_ne fun stops =>
    Ctrl.noConfusion (run.2.symm.trans stops)
  have told : endAccess isCommandAccess 0 ok data.length (fun a ok s => commandAccessEnd data a ok s) s =
      commandAccessEnd data a ok (s.inFlight rest) := by
    unfold endAccess
    rw [popped]
    cases ok with
    | false => exact if_pos heeded
    | true =>
      obtain ⟨whole, bytes⟩ := ends rfl
      simp only [whole, bytes, Bool.not_true, Bool.not_false, Bool.and_false, Bool.and_true, Bool.false_eq_true, if_false]
      exact if_pos heeded
  exact congrArg Host.Outcome.next ((awake_of_awake run.1).trans told)

theorem cmdReadEnd_at (held : s.mgmt.command = some { entry := e, phase := .hostAccess }) :
    cmdReadEnd true data s = if opcode e = 0x0B then imageRead e data s else definitionRead e data s := by
  simp [cmdReadEnd, held]

theorem statusWordEnded_at (held : s.mgmt.command = some { entry := e, phase := .statusWord })
    (mine : a.forCommand = true) : statusWordEnded a s = answered e .success 0 0 s := by
  rw [statusWordEnded, if_pos mine, completeIf_at held]

theorem portSlot_eq {p : PortId} {o : OwnId} (port : (byteAt e 8).toNat = p.val) (own : (byteAt e 9).toNat = o.val) :
    portSlot e = some (p, o) := by
  simp [portSlot, asId_of_toNat_eq port, asId_of_toNat_eq own]

theorem reads_iff {x : Transfer} {o : OwnId} : x.reads o = true ↔ ∃ d, x = .imageRead o d := by
  cases x <;> simp [Transfer.reads]

end Sys2Proof.Machine

namespace Sys2Proof.Proofs

open Sys2Proof.Machine

/-- Settles O38: the end is told to the block of the access's kind, which finds the command waiting for it. -/
theorem commandAccessEnds : Obligations.CommandAccessEnds := by
  intro s e a rest data run fly
  have mine : a.forCommand = true := by obtain ⟨_, _, _, _, mine, _⟩ := fly; exact mine
  have told {ok : Bool} (ends : EndsAs a ok data.length) := exec_commandHostAccessEnd run ends fly
  have failed : EndsAs a false data.length := nofun
  refine ⟨fun held => ?buffer, fun held kind ends => ?word, fun n ok held kind ends => ?deleted⟩
  case buffer =>
    have held : (s.inFlight rest).mgmt.command = some { entry := e, phase := .hostAccess } := held
    refine ⟨fun kind => ⟨fun ends => ?_, ?_⟩, fun kind => ⟨?_, fun p o ends op port own free => ?_,
      fun p o d ends op port own reading => ?_, fun i ends op entry => ?_⟩⟩
    · rw [told ends, commandAccessEnd, kind]
      exact congrArg Host.Outcome.next (completeIf_at held)
    · rw [told failed, commandAccessEnd, kind]
      exact congrArg Host.Outcome.next (completeIf_at held)
    · rw [told failed, commandAccessEnd, kind]
      simp only [cmdReadEnd, held, if_true, Bool.not_false]
      exact congrArg Host.Outcome.next (reply_of_command held)
    · have apart : (s.port p).tgt.transfer.reads o = false :=
        Bool.eq_false_iff.mpr fun reads => (reads_iff.mp reads).elim free
      rw [told ends, commandAccessEnd, kind]
      dsimp only
      rw [cmdReadEnd_at held, if_pos op, imageRead, portSlot_eq port own]
      dsimp only
      rw [show ((s.inFlight rest).port p).tgt.transfer.reads o = false from apart, if_neg Bool.false_ne_true]
      exact congrArg Host.Outcome.next (reply_of_command (by exact held))
    · have reads : (s.port p).tgt.transfer.reads o = true := reads_iff.mpr ⟨d, reading⟩
      rw [told ends, commandAccessEnd, kind]
      dsimp only
      rw [cmdReadEnd_at held, if_pos op, imageRead, portSlot_eq port own]
      dsimp only
      rw [if_pos (by exact reads)]
      exact congrArg Host.Outcome.next (setCommandPhase_of_command (by exact held))
    · have acts : exec (.commandHostAccessEnd true data) s = .next (definitionRead e data (s.inFlight rest)) := by
        rw [told ends, commandAccessEnd, kind]
        dsimp only
        rw [cmdReadEnd_at held, if_neg (by rw [op]; decide)]
      rw [acts, definitionRead, asId_of_toNat_eq entry]
      refine ⟨fun bad => ?_, fun E good => ⟨fun far => ?_, fun n queue => ⟨fun gone => ?_, fun there => ?_⟩⟩⟩
      · rw [bad]
        exact congrArg Host.Outcome.next (reply_of_command held)
      · rw [good, definitionCq, asId_of_le far]
        exact congrArg Host.Outcome.next (reply_of_command held)
      · rw [good, definitionCq, asId_of_toNat_eq queue]
        dsimp only
        rw [if_pos (by exact gone)]
        exact congrArg Host.Outcome.next (reply_of_command held)
      · rw [good, definitionCq, asId_of_toNat_eq queue]
        dsimp only
        rw [if_neg (by exact there)]
        exact congrArg Host.Outcome.next (reply_of_command (by exact held))
  case word =>
    have held : (s.inFlight rest).mgmt.command = some { entry := e, phase := .statusWord } := held
    have done : statusWordEnded a (s.inFlight rest) = (answered e .success 0 0 s).inFlight rest :=
      statusWordEnded_at held mine
    rw [told ends]
    refine congrArg Host.Outcome.next ?_
    obtain kind | ⟨q, kind⟩ | ⟨n, kind⟩ := kind <;> rw [commandAccessEnd, kind] <;> exact done
  case deleted =>
    rw [told ends, commandAccessEnd, kind]
    exact congrArg Host.Outcome.next (statusWordEnded_at (s := (s.inFlight rest).modCq n fun _ => CqCtx.reset) held mine)

end Sys2Proof.Proofs
end

section
/-! SUPPORT. What an expiry and a skip of a trigger entry do (R130 to R132), and what arming and disarming the
entries a map names does to each (R140, R141). From them the statement EnableAndDisableTriggers. -/

namespace Sys2Proof.Machine

variable {s v : State} {i w : TrigId} {k : SlotId} {r : Request} {d : Byte} {n : Half} {x : Word}

/-! ### A skip (R132) -/

theorem skip_unreported (h : (s.trigger i).reportSkips = false) :
    skip i d n x s = s.modTrigger i fun E => { E with skips := satInc E.skips } := by
  unfold skip
  dsimp only
  rw [trigger_modTrigger, if_pos rfl]
  dsimp only
  rw [h]

/-- A skip counted in the entry, its record with it or not. -/
def Trigger.skipped (reported : Bool) (E : Trigger) : Trigger :=
  { E with skips := satInc E.skips, reports := if reported then satInc E.reports else E.reports }

section

variable (reports : (s.trigger i).reportSkips = true) (template : (s.trigger i).template = some r)
include reports template

theorem skip_reported :
    skip i d n x s =
      match tryOffer ⟨skippedRecord i r d n x s.timebase, (s.trigger i).cq, r.notify, none⟩
        (s.modTrigger i (Trigger.skipped false)) with
      | some s' => s'.modTrigger i fun E => { E with reports := satInc E.reports }
      | none => s.modTrigger i (Trigger.skipped false) := by
  unfold skip
  dsimp only
  rw [trigger_modTrigger, if_pos rfl]
  dsimp only
  rw [reports, template]
  rfl

theorem skip_accepted (running : (s.cq (s.trigger i).cq).state = .running) (room : s.comp.holding.length < 32) :
    skip i d n x s = { s.modTrigger i (Trigger.skipped true) with comp := { s.comp with holding := s.comp.holding ++
      [⟨skippedRecord i r d n x s.timebase, (s.trigger i).cq, r.notify, none⟩] } } := by
  have offered : tryOffer ⟨skippedRecord i r d n x s.timebase, (s.trigger i).cq, r.notify, none⟩
      (s.modTrigger i (Trigger.skipped false)) = some _ := (if_pos running).trans (if_pos room)
  rw [skip_reported reports template, offered]
  simp only [State.modTrigger, upd_upd]
  rfl

theorem skip_dropped (running : (s.cq (s.trigger i).cq).state = .running) (full : 32 ≤ s.comp.holding.length) :
    skip i d n x s = s.modTrigger i (Trigger.skipped false) := by
  have refused : tryOffer ⟨skippedRecord i r d n x s.timebase, (s.trigger i).cq, r.notify, none⟩
      (s.modTrigger i (Trigger.skipped false)) = none := (if_pos running).trans (if_neg (Nat.not_lt.mpr full))
  rw [skip_reported reports template, refused]

theorem skip_discarded (stopped : (s.cq (s.trigger i).cq).state ≠ .running) :
    skip i d n x s = s.modTrigger i (Trigger.skipped true) := by
  have taken : tryOffer ⟨skippedRecord i r d n x s.timebase, (s.trigger i).cq, r.notify, none⟩
      (s.modTrigger i (Trigger.skipped false)) = some (s.modTrigger i (Trigger.skipped false)) := if_neg stopped
  rw [skip_reported reports template, taken]
  exact modTrigger_modTrigger ..

end

/-- What a skip or an expiry leaves alone: all but the entry's own counters, the holding list, and the slot
and the list a triggered transaction enters. -/
structure OwnEntry (i : TrigId) (s v : State) : Prop where
  link : v.link = s.link
  timebase : v.timebase = s.timebase
  mgmt : v.mgmt = s.mgmt
  trig : v.trig = { s.trig with entries := v.trig.entries }
  others : ∀ w, w ≠ i → v.trigger w = s.trigger w
  own : v.trigger i = { s.trigger i with
    sequence := (v.trigger i).sequence, outstanding := (v.trigger i).outstanding,
    skips := (v.trigger i).skips, reports := (v.trigger i).reports }

theorem OwnEntry.same : OwnEntry i s s := ⟨rfl, rfl, rfl, rfl, fun _ _ => rfl, rfl⟩

theorem OwnEntry.trans {u : State} (a : OwnEntry i s v) (b : OwnEntry i v u) : OwnEntry i s u :=
  ⟨b.link.trans a.link, b.timebase.trans a.timebase, b.mgmt.trans a.mgmt, by rw [b.trig, a.trig],
    fun w hw => (b.others w hw).trans (a.others w hw), by
      have own := b.own
      rw [a.own] at own
      exact own⟩

theorem ownEntry_modTrigger {f : Trigger → Trigger} (h : ∀ E, f E = { E with
      sequence := (f E).sequence, outstanding := (f E).outstanding, skips := (f E).skips,
      reports := (f E).reports }) : OwnEntry i s (s.modTrigger i f) :=
  ⟨rfl, rfl, rfl, rfl, fun w hw => by rw [trigger_modTrigger, if_neg hw.symm], by
    rw [trigger_modTrigger, if_pos rfl]
    exact h _⟩

theorem ownEntry_skip : OwnEntry i s (skip i d n x s) := by
  have counted : OwnEntry i s (s.modTrigger i fun E => { E with skips := satInc E.skips }) :=
    ownEntry_modTrigger fun _ => rfl
  unfold skip
  dsimp only
  split
  · split
    next offered =>
      have taken := tryOffer_of_no_slot rfl offered
      refine (counted.trans ?_).trans (ownEntry_modTrigger fun _ => rfl)
      rw [taken]
      exact ⟨rfl, rfl, rfl, rfl, fun _ _ => rfl, rfl⟩
    · exact counted
  · exact counted

theorem skip_slots : (skip i d n x s).slots = s.slots ∧ (skip i d n x s).ports = s.ports := by
  unfold skip
  dsimp only
  split
  · split
    next offered => rw [tryOffer_of_no_slot rfl offered]; exact ⟨rfl, rfl⟩
    · exact ⟨rfl, rfl⟩
  · exact ⟨rfl, rfl⟩

/-! ### An expiry (R130, R131) -/

/-- An entry that has expired: its sequence number is taken. -/
def Trigger.sequenced (E : Trigger) : Trigger := { E with sequence := E.sequence + 1 }

/-- An entry whose expiry has made its transaction. -/
def Trigger.fired (E : Trigger) : Trigger := { E with sequence := E.sequence + 1, outstanding := true }

theorem expire_overrun {b : Bool} (h : (s.trigger i).outstanding = true ∨ b = true) :
    expire i x b s = skip i detailOverrun (s.trigger i).sequence x (s.modTrigger i Trigger.sequenced) :=
  if_pos (by simpa using h)

theorem skip_sequenced_unreported (silent : (s.trigger i).reportSkips = false) :
    skip i d n x (s.modTrigger i Trigger.sequenced) =
      s.modTrigger i fun E => { E with sequence := E.sequence + 1, skips := satInc E.skips } := by
  rw [skip_unreported (by rw [trigger_modTrigger, if_pos rfl]; exact silent), modTrigger_modTrigger]
  rfl

theorem freeTriggerSlot_modTrigger (f : Trigger → Trigger) :
    (s.modTrigger i f).freeTriggerSlot = s.freeTriggerSlot := rfl

theorem expire_noRoom (free : (s.trigger i).outstanding = false) (template : (s.trigger i).template = some r)
    (h : s.freeTriggerSlot = none ∨ 32 ≤ (s.port (portOf r.port)).list.length) :
    expire i x false s = skip i detailNoRoom (s.trigger i).sequence x (s.modTrigger i Trigger.sequenced) := by
  unfold expire
  dsimp only
  rw [free, template, if_neg (by decide), freeTriggerSlot_modTrigger]
  obtain none_free | full := h
  · rw [none_free]
    rfl
  · have full : ∀ f, (s.modTrigger i f).listFull (portOf r.port) = true := fun f => decide_eq_true full
    cases s.freeTriggerSlot with
    | none => rfl
    | some j => exact if_pos (full _)

/-- An expiry with a slot and room makes the transaction. -/
theorem expire_makes (free : (s.trigger i).outstanding = false) (template : (s.trigger i).template = some r)
    (slot : s.freeTriggerSlot = some k) (room : (s.port (portOf r.port)).list.length < 32) :
    expire i x false s = insertTxn k (newInstance i (s.trigger i) r (s.trigger i).sequence x s.timebase)
      (s.modTrigger i Trigger.fired) := by
  have fits : ∀ f, (s.modTrigger i f).listFull (portOf r.port) = false := fun f =>
    decide_eq_false (Nat.not_le.mpr room)
  unfold expire
  dsimp only
  rw [free, template, if_neg (by decide), freeTriggerSlot_modTrigger, slot]
  dsimp only
  rw [if_neg (by rw [fits]; exact Bool.false_ne_true), modTrigger_modTrigger]
  rfl

theorem ownEntry_insertTxn {y : Txn} : OwnEntry i s (insertTxn k y s) :=
  ⟨rfl, rfl, rfl, rfl, fun _ _ => rfl, rfl⟩

theorem ownEntry_expire {b : Bool} : OwnEntry i s (expire i x b s) := by
  have sequenced : ∀ v : State, OwnEntry i v (v.modTrigger i Trigger.sequenced) :=
    fun v => ownEntry_modTrigger fun _ => rfl
  unfold expire
  dsimp only
  split
  · exact (sequenced s).trans ownEntry_skip
  · split
    · split
      · exact (sequenced s).trans ownEntry_skip
      · exact ((sequenced s).trans (ownEntry_modTrigger fun _ => rfl)).trans ownEntry_insertTxn
    · exact (sequenced s).trans ownEntry_skip

/-- Between `s` and `v` a triggered transaction of entry `i` was made in slot `k`, with its trigger time (R131). -/
structure Made (s v : State) (i : TrigId) (k : SlotId) (r : Request) (time : Word) : Prop where
  instanceOf : v.txn k = some (newInstance i (s.trigger i) r (s.trigger i).sequence time s.timebase)
  longer : (v.port (portOf r.port)).list.length = (s.port (portOf r.port)).list.length + 1
  listed : k ∈ (v.port (portOf r.port)).list
  ports : ∀ q, q ≠ portOf r.port → v.port q = s.port q
  txns : ∀ j, j ≠ k → v.txn j = s.txn j
  entries : ∀ w, w ≠ i → v.trigger w = s.trigger w

theorem mem_insertAt (l : List SlotId) (m : Nat) (k : SlotId) : k ∈ insertAt l m k :=
  List.mem_append_right _ (List.mem_cons_self ..)

/-- An expiry of an entry, after changes to the trigger unit alone that leave what its transaction takes from the
entry. -/
theorem made_expire (same : v = { s with trig := v.trig }) (others : ∀ w, w ≠ i → v.trigger w = s.trigger w)
    (cq : (v.trigger i).cq = (s.trigger i).cq) (bytes : (v.trigger i).writeData = (s.trigger i).writeData)
    (number : (v.trigger i).sequence = (s.trigger i).sequence)
    (free : (v.trigger i).outstanding = false) (template : (v.trigger i).template = some r)
    (slot : s.freeTriggerSlot = some k) (room : (s.port (portOf r.port)).list.length < 32) :
    Made s (expire i x false v) i k r x ∧
      (expire i x false v).trigger i = (v.trigger i).fired := by
  have port : ∀ q, v.port q = s.port q := fun q => by rw [same]; rfl
  have base : v.timebase = s.timebase := by rw [same]
  have takes : newInstance i (v.trigger i) r (v.trigger i).sequence x v.timebase =
      newInstance i (s.trigger i) r (s.trigger i).sequence x s.timebase := by
    unfold newInstance
    rw [cq, bytes, number, base]
  have txn : ∀ j, v.txn j = s.txn j := fun j => by rw [same]; rfl
  rw [expire_makes free template (slot := by rw [same]; exact slot) (by rwa [port]), takes]
  have entered := list_insertTxn_same (v.modTrigger i Trigger.fired) k
    (newInstance i (s.trigger i) r (s.trigger i).sequence x s.timebase)
  rw [show (newInstance i (s.trigger i) r (s.trigger i).sequence x s.timebase).port = portOf r.port from rfl] at entered
  refine ⟨⟨txn_insertTxn_same _ k _, ?_, ?_, fun q hq => ?_, fun j hj => ?_, fun w hw => ?_⟩, ?_⟩
  · rw [entered, length_insertAt]
    exact congrArg (·.list.length + 1) (port _)
  · rw [entered]
    exact mem_insertAt ..
  · exact (port_insertTxn_of_ne _ k (by exact hq)).trans (port q)
  · refine Eq.trans ?_ (txn j)
    rw [insertTxn, txn_setSlot, if_neg (Ne.symm hj)]
    rfl
  · exact Eq.trans (by exact (trigger_modTrigger ..).trans (if_neg (Ne.symm hw))) (others w hw)
  · exact (trigger_modTrigger ..).trans (if_pos rfl)

/-! ### One entry after another -/

theorem foldl_idle {ι : Type} {f : State → ι → State} (l : List ι) (u : State) (still : ∀ q ∈ l, f u q = u) :
    l.foldl f u = u := by
  induction l with
  | nil => rfl
  | cons q l ih =>
    rw [List.foldl_cons, still q (List.mem_cons_self ..)]
    exact ih fun w hw => still w (List.mem_cons_of_mem _ hw)

/-- Where an operation on one object after another does something on one of them only, the whole is that. -/
theorem foldl_one {ι α : Type} {get : State → ι → α} {f : State → ι → State} {l : List ι} {m : ι}
    (own : ∀ q, q ≠ m → get (f s m) q = get s q) (nodup : l.Nodup) (here : m ∈ l)
    (idle : ∀ q ∈ l, q ≠ m → ∀ u, get u q = get s q → f u q = u) : l.foldl f s = f s m := by
  induction l with
  | nil => cases here
  | cons q l ih =>
    obtain ⟨fresh, nodup⟩ := List.nodup_cons.mp nodup
    rw [List.foldl_cons]
    rcases List.mem_cons.mp here with rfl | later
    · refine foldl_idle l _ fun w hw => ?_
      have ne : w ≠ m := fun e => fresh (e ▸ hw)
      exact idle w (List.mem_cons_of_mem _ hw) ne _ (own w ne)
    · rw [idle q (List.mem_cons_self ..) (fun e => fresh (e ▸ later)) s rfl]
      exact ih nodup later fun w hw => idle w (List.mem_cons_of_mem _ hw)

theorem nodup_allTriggers : allTriggers.Nodup := List.nodup_finRange 32

theorem someArmed_iff : s.someArmed = true ↔ ∃ i, (s.trigger i).state = .armed := by
  simp [State.someArmed, mem_allTriggers]

/-- What arming and disarming change: the entries and the tick's bookkeeping. -/
def TrigOnly (s v : State) : Prop := v = { s with trig := v.trig }

theorem TrigOnly.same : TrigOnly s s := rfl
theorem TrigOnly.trans {u : State} (a : TrigOnly s v) (b : TrigOnly v u) : TrigOnly s u := by
  unfold TrigOnly at a b ⊢
  rw [b, a]

/-! ### ENABLE TRIGGERS (R140) -/

section

variable {map : Word} {alerts : BitVec 4} {e : List Byte} {armed : List TrigId}

theorem armNamed_eq (s : State) (i : TrigId) : armNamed map s i =
    if map.getLsbD i.val = true ∧ (s.trigger i).state = .disabled then s.modTrigger i Trigger.enabled else s := by
  simp [armNamed, mapNames]

theorem trigger_armNamed_of_ne (h : w ≠ i) : (armNamed map s i).trigger w = s.trigger w := by
  rw [armNamed_eq]
  split
  · rw [trigger_modTrigger, if_neg h.symm]
  · rfl

/-- Arming changes the entries alone. -/
def EntriesOnly (s v : State) : Prop := v = { s with trig := { s.trig with entries := v.trig.entries } }

theorem entriesOnly_armNamed : EntriesOnly s (armNamed map s i) := by
  rw [armNamed_eq]
  split <;> rfl

theorem EntriesOnly.trans {u : State} (a : EntriesOnly s v) (b : EntriesOnly v u) : EntriesOnly s u := by
  unfold EntriesOnly at a b ⊢
  rw [b, a]

/-- The named DISABLED entries are armed, the others stay (R140). -/
theorem foldl_armNamed (s : State) : EntriesOnly s (allTriggers.foldl (armNamed map) s) ∧
    ∀ i, (allTriggers.foldl (armNamed map) s).trigger i =
      if map.getLsbD i.val = true ∧ (s.trigger i).state = .disabled then (s.trigger i).enabled else s.trigger i := by
  obtain ⟨frame, -, each⟩ := foldl_each State.trigger (R := EntriesOnly) (fun _ => rfl) .trans
    (fun _ _ => entriesOnly_armNamed (map := map)) (fun _ _ _ => trigger_armNamed_of_ne) allTriggers nodup_allTriggers s
  refine ⟨frame, fun i => ?_⟩
  obtain ⟨u, -, same, -, result⟩ := each i (mem_allTriggers i)
  rw [result, armNamed_eq, same]
  split
  · rw [trigger_modTrigger, if_pos rfl, same]
  · exact same

theorem alertLevels_get (p : PortId) : (alertLevels alerts).get p = alerts.getLsbD p.val := by
  simp [alertLevels, Vector.get]
  rfl

theorem ownEntry_fireLevel : OwnEntry i s (fireLevel armed s i) := by
  unfold fireLevel
  dsimp only
  split
  · exact ownEntry_expire
  · exact .same

/-- What the expiries at the enable leave alone: all but the entries, the holding list, the slots and lists. -/
def FireFrame (s v : State) : Prop :=
  v.link = s.link ∧ v.timebase = s.timebase ∧ v.mgmt = s.mgmt ∧
    v.trig = { s.trig with entries := v.trig.entries }

theorem FireFrame.trans {u : State} (a : FireFrame s v) (b : FireFrame v u) : FireFrame s u := by
  obtain ⟨link, base, mgmt, trig⟩ := a
  obtain ⟨link', base', mgmt', trig'⟩ := b
  exact ⟨link'.trans link, base'.trans base, mgmt'.trans mgmt, by rw [trig', trig]⟩

theorem OwnEntry.frame (h : OwnEntry i s v) : FireFrame s v := ⟨h.link, h.timebase, h.mgmt, h.trig⟩

/-- Each entry takes its own expiry at the enable, finding what concerns it as it was. -/
theorem foldl_fireLevel (s : State) : FireFrame s (allTriggers.foldl (fireLevel armed) s) ∧
    ∀ i, ∃ u, FireFrame s u ∧ u.trigger i = s.trigger i ∧
      (allTriggers.foldl (fireLevel armed) s).trigger i = (fireLevel armed u i).trigger i := by
  obtain ⟨frame, -, each⟩ := foldl_each State.trigger (R := FireFrame) (fun _ => ⟨rfl, rfl, rfl, rfl⟩) .trans
    (fun _ _ => (ownEntry_fireLevel (armed := armed)).frame) (fun _ _ _ => ownEntry_fireLevel.others _) allTriggers
    nodup_allTriggers s
  exact ⟨frame, fun i => (each i (mem_allTriggers i)).imp fun _ h => ⟨h.1, h.2.1, h.2.2.2⟩⟩

theorem fireLevel_of_not (h : (s.trigger i).kind = .periodic ∨ (s.trigger i).alertMode = .edge ∨
    s.trig.alertLow.get (s.trigger i).alertPort = false ∨ (s.trigger i).outstanding = true ∨ i ∉ armed) :
    fireLevel armed s i = s := by
  refine if_neg ?_
  rcases h with e | e | e | e | e <;> simp [e, State.heldOff]

theorem fireLevel_expires (here : i ∈ armed) (alert : (s.trigger i).kind = .alert) (level : (s.trigger i).alertMode = .level)
    (low : s.trig.alertLow.get (s.trigger i).alertPort = true) (free : s.heldOff i = false) :
    fireLevel armed s i = expire i s.timebase false s :=
  if_pos (by simp [here, alert, level, low, free])

/-- The entries that ENABLE TRIGGERS arms (R140). -/
def State.arming (s : State) (map : Word) : List TrigId :=
  allTriggers.filter fun i => mapNames map i && (s.trigger i).state == .disabled

theorem mem_arming : i ∈ s.arming map ↔ map.getLsbD i.val = true ∧ (s.trigger i).state = .disabled := by
  simp [State.arming, mem_allTriggers, mapNames]

/-- The entries armed and the prescaler started, before the expiries of LEVEL entries (R125, R140). -/
def State.armedBy (s : State) (alerts : BitVec 4) (map : Word) : State :=
  let v := allTriggers.foldl (armNamed map) { s with trig := { s.trig with alertLow := alertLevels alerts } }
  if !s.someArmed && v.someArmed then { v with trig := { v.trig with prescaler := some v.timebase } } else v

theorem armTriggers_refused (h : ∃ i : TrigId, (rd32 e 8).getLsbD i.val = true ∧ (s.trigger i).state = .empty) :
    armTriggers alerts e s = reply .invalidId s :=
  if_pos (by simpa [mapNames, mem_allTriggers] using h)

theorem armTriggers_accepted (h : ∀ i : TrigId, (rd32 e 8).getLsbD i.val = true → (s.trigger i).state ≠ .empty) :
    armTriggers alerts e s =
      reply .success (allTriggers.foldl (fireLevel (s.arming (rd32 e 8))) (s.armedBy alerts (rd32 e 8))) :=
  if_neg (by simpa [mapNames, mem_allTriggers] using h)

theorem armedBy_frame : s.armedBy alerts map = { s with trig := { s.trig with
    entries := (s.armedBy alerts map).trig.entries, prescaler := (s.armedBy alerts map).trig.prescaler,
    alertLow := alertLevels alerts } } := by
  have frame := (foldl_armNamed (map := map) { s with trig := { s.trig with alertLow := alertLevels alerts } }).1
  unfold State.armedBy
  dsimp only
  split
  · rw [frame]
  · rw [frame]

theorem armedBy_trigger : (s.armedBy alerts map).trigger i =
    if map.getLsbD i.val = true ∧ (s.trigger i).state = .disabled then (s.trigger i).enabled else s.trigger i := by
  have each := (foldl_armNamed (map := map) { s with trig := { s.trig with alertLow := alertLevels alerts } }).2 i
  unfold State.armedBy
  dsimp only
  split <;> exact each

theorem armedBy_starts (rest : ∀ i, (s.trigger i).state ≠ .armed)
    (some_named : ∃ i : TrigId, map.getLsbD i.val = true ∧ (s.trigger i).state = .disabled) :
    (s.armedBy alerts map).trig.prescaler = some s.timebase := by
  obtain ⟨frame, each⟩ := foldl_armNamed (map := map) { s with trig := { s.trig with alertLow := alertLevels alerts } }
  obtain ⟨i, named, disabled⟩ := some_named
  have before : s.someArmed = false := Bool.eq_false_iff.mpr fun armed => (someArmed_iff.mp armed).elim rest
  have after : (allTriggers.foldl (armNamed map)
      { s with trig := { s.trig with alertLow := alertLevels alerts } }).someArmed = true :=
    someArmed_iff.mpr ⟨i, by rw [each i, if_pos ⟨named, disabled⟩]; rfl⟩
  unfold State.armedBy
  dsimp only
  rw [before, after, if_pos (by decide)]
  dsimp only
  rw [frame]

theorem armedBy_goes_on (h : ∃ i, (s.trigger i).state = .armed) :
    (s.armedBy alerts map).trig.prescaler = s.trig.prescaler := by
  have frame := (foldl_armNamed (map := map) { s with trig := { s.trig with alertLow := alertLevels alerts } }).1
  unfold State.armedBy
  dsimp only
  rw [someArmed_iff.mpr h, if_neg (by simp), frame]

end

/-! ### DISABLE TRIGGERS (R141) -/

section

variable {map : Word}

theorem disarm_eq (i : TrigId) (s : State) : disarm i s = { s with trig := { s.trig with
    entries := upd s.trig.entries i Trigger.disarmed, tickDue := s.trig.tickDue.filter fun u => u != i,
    prescaler := if (s.modTrigger i Trigger.disarmed).someArmed then s.trig.prescaler else none } } := by
  unfold disarm
  dsimp only
  rw [show State.someArmed { s.modTrigger i Trigger.disarmed with trig := { (s.modTrigger i Trigger.disarmed).trig with
    tickDue := (s.modTrigger i Trigger.disarmed).trig.tickDue.filter fun u => u != i } } =
    (s.modTrigger i Trigger.disarmed).someArmed from rfl]
  split
  next armed => simp only [State.modTrigger]
  next none_armed => simp only [State.modTrigger]

theorem trigger_disarm : (disarm i s).trigger w = if i = w then (s.trigger w).disarmed else s.trigger w := by
  rw [disarm_eq]
  refine (get_upd ..).trans ?_
  split
  next same => rw [same]; rfl
  next => rfl

theorem disarmNamed_eq (s : State) (i : TrigId) : disarmNamed map s i =
    if map.getLsbD i.val = true ∧ (s.trigger i).state = .armed then disarm i s else s := by
  simp [disarmNamed, mapNames]

theorem trigOnly_disarmNamed : TrigOnly s (disarmNamed map s i) := by
  rw [disarmNamed_eq]
  split
  · rw [disarm_eq]; rfl
  · rfl

theorem trigger_disarmNamed_of_ne (h : w ≠ i) : (disarmNamed map s i).trigger w = s.trigger w := by
  rw [disarmNamed_eq]
  split
  · rw [trigger_disarm, if_neg h.symm]
  · rfl

theorem foldl_disarmNamed (s : State) : TrigOnly s (allTriggers.foldl (disarmNamed map) s) ∧
    ∀ i, (allTriggers.foldl (disarmNamed map) s).trigger i =
      if map.getLsbD i.val = true ∧ (s.trigger i).state = .armed then (s.trigger i).disarmed else s.trigger i := by
  obtain ⟨frame, -, each⟩ := foldl_each State.trigger (R := TrigOnly) (fun _ => rfl) .trans
    (fun _ _ => trigOnly_disarmNamed (map := map)) (fun _ _ _ => trigger_disarmNamed_of_ne) allTriggers
    nodup_allTriggers s
  refine ⟨frame, fun i => ?_⟩
  obtain ⟨u, -, same, -, result⟩ := each i (mem_allTriggers i)
  rw [result, disarmNamed_eq, same]
  split
  · rw [trigger_disarm, if_pos rfl, same]
  · exact same

/-- The prescaler stops with the last ARMED entry (R125, R141). -/
theorem foldl_disarmNamed_prescaler (l : List TrigId) (s : State) (before : ∃ i, (s.trigger i).state = .armed)
    (after : ∀ i, ((l.foldl (disarmNamed map) s).trigger i).state ≠ .armed) :
    (l.foldl (disarmNamed map) s).trig.prescaler = none := by
  induction l generalizing s with
  | nil => exact absurd before.choose_spec (after _)
  | cons i l ih =>
    rw [List.foldl_cons] at after ⊢
    by_cases armed : ∃ w, ((disarmNamed map s i).trigger w).state = .armed
    · exact ih _ armed after
    · have rests : l.foldl (disarmNamed map) (disarmNamed map s i) = disarmNamed map s i :=
        foldl_idle l _ fun w _ => (disarmNamed_eq _ w).trans (if_neg fun h => armed ⟨w, h.2⟩)
      rw [rests]
      rw [disarmNamed_eq] at armed ⊢
      split at armed
      next named =>
        rw [if_pos named, disarm_eq]
        have stopped : (s.modTrigger i Trigger.disarmed).someArmed = false := Bool.eq_false_iff.mpr fun h => by
          obtain ⟨w, hw⟩ := someArmed_iff.mp h
          refine armed ⟨w, ?_⟩
          rw [disarm_eq]
          exact hw
        exact if_neg (by rw [stopped]; exact Bool.false_ne_true)
      next => exact absurd before armed

end

end Sys2Proof.Machine

namespace Sys2Proof.Proofs

open Sys2Proof.Machine

/-- Settles O36: each named entry is armed or disarmed by itself, and the expiry of a LEVEL entry at the enable
changes its own counters alone. -/
theorem enableAndDisableTriggers : Obligations.EnableAndDisableTriggers := by
  intro s e
  refine ⟨fun alerts h => ⟨fun missing => ?refused, fun present => ?armed⟩, fun h => ?disarmed⟩
  case refused => exact h.answers (f := armTriggers alerts) rfl (armTriggers_refused missing)
  case armed =>
    let v := s.armedBy alerts (rd32 e 8)
    have frame : v = { s with trig := _ } := armedBy_frame
    have entry (i : TrigId) : v.trigger i = _ := armedBy_trigger
    obtain ⟨⟨-, base, mgmt, trig⟩, each⟩ := foldl_fireLevel (armed := s.arming (rd32 e 8)) v
    have held : (allTriggers.foldl (fireLevel (s.arming (rd32 e 8))) v).mgmt.command =
        some { entry := e, phase := .execute } := by rw [mgmt, frame]; exact h.held
    have still (i : TrigId) (out : (rd32 e 8).getLsbD i.val = false ∨ (s.trigger i).state ≠ .disabled) :
        i ∉ s.arming (rd32 e 8) := fun mem => by
      obtain ⟨named, disabled⟩ := mem_arming.mp mem
      exact out.elim (fun no => Bool.false_ne_true (no.symm.trans named)) (fun no => no disabled)
    refine ⟨_, h.runs (f := armTriggers alerts) rfl ((armTriggers_accepted present).trans (reply_of_command held)),
      rfl, ?_, fun i named disabled => ?_, fun i out => ?_, fun rest some_named => ?_, fun some_armed => ?_,
      fun i named disabled => ⟨fun quiet => ?_, fun k r alert level low free template due slot room alone => ?_⟩⟩
    · refine congrArg (fun x => some (completionRecord e .success 0 0 x)) (base.trans ?_)
      rw [frame]
    · obtain ⟨u, -, same, result⟩ := each i
      refine Eq.mp (congrArg (fun E : Trigger => E.state = .armed ∧ E.first = true ∧ E.consecutive = 0 ∧
        E.latched = none ∧ E.template = (s.trigger i).template ∧
        ((s.trigger i).kind = .periodic → E.downCounter = (s.trigger i).phase) ∧
        ((s.trigger i).kind = .alert → E.holdoffCtr = 0)) result.symm) ?_
      rw [ownEntry_fireLevel.own, same, entry, if_pos ⟨named, disabled⟩]
      exact ⟨rfl, rfl, rfl, rfl, rfl, fun periodic => by simp [Trigger.enabled, periodic], fun _ => rfl⟩
    · obtain ⟨u, -, same, result⟩ := each i
      refine result.trans ?_
      rw [fireLevel_of_not (.inr (.inr (.inr (.inr (still i out))))), same, entry]
      exact if_neg fun both => still i out (mem_arming.mpr both)
    · exact (congrArg TrigUnit.prescaler trig).trans (armedBy_starts rest some_named)
    · exact (congrArg TrigUnit.prescaler trig).trans (armedBy_goes_on some_armed)
    · obtain ⟨u, ⟨-, -, -, unit⟩, same, result⟩ := each i
      have armed : u.trigger i = (s.trigger i).enabled := by rw [same, entry, if_pos ⟨named, disabled⟩]
      have low : u.trig.alertLow = alertLevels alerts := by rw [unit, frame]
      have rests : fireLevel (s.arming (rd32 e 8)) u i = u := by
        refine fireLevel_of_not ?_
        rw [armed, low]
        obtain quiet | quiet | quiet | quiet := quiet
        · exact .inl quiet
        · exact .inr (.inl quiet)
        · refine .inr (.inr (.inl ?_))
          rw [alertLevels_get]
          exact quiet
        · exact .inr (.inr (.inr (.inl quiet)))
      refine Eq.mp (congrArg (fun E : Trigger => E.sequence = _ ∧ E.outstanding = _) result.symm) ?_
      rw [rests, armed]
      exact ⟨rfl, rfl⟩
    · have armed : v.trigger i = (s.trigger i).enabled := by rw [entry, if_pos ⟨named, disabled⟩]
      have unheld : v.heldOff i = false := by
        simp only [State.heldOff, armed, show v.trig.tickDue = s.trig.tickDue by rw [frame]]
        simp [Trigger.enabled, free, due]
      have fires : allTriggers.foldl (fireLevel (s.arming (rd32 e 8))) v = expire i v.timebase false v := by
        rw [foldl_one (get := State.trigger) (fun _ => ownEntry_fireLevel.others _) nodup_allTriggers (mem_allTriggers i)
          fun w _ ne u same => ?_]
        · refine fireLevel_expires (mem_arming.mpr ⟨named, disabled⟩) (by rw [armed]; exact alert)
            (by rw [armed]; exact level) ?_ unheld
          rw [armed, frame]
          rw [alertLevels_get]
          exact low
        · refine fireLevel_of_not ?_
          by_cases mem : w ∈ s.arming (rd32 e 8)
          · obtain ⟨other, off⟩ := mem_arming.mp mem
            rw [same, entry, if_pos ⟨other, off⟩]
            exact (alone w ne other off).elim .inl fun edge => .inr (.inl edge)
          · exact .inr (.inr (.inr (.inr mem)))
      obtain ⟨made, fired⟩ := made_expire (s := v) (v := v) (i := i) (x := v.timebase) (k := k) (r := r) rfl (fun _ _ => rfl)
        rfl rfl rfl (by rw [armed]; exact free) (by rw [armed]; exact template)
        (by rw [frame]; exact slot) (by rw [frame]; exact room)
      rw [← fires] at made fired
      have now : v.timebase = s.timebase := by rw [frame]
      refine ⟨(congrArg Trigger.sequence fired).trans ?_, congrArg Trigger.outstanding fired, made.instanceOf.trans ?_,
        made.listed⟩
      · rw [armed]; rfl
      · rw [armed, now]; rfl
  case disarmed =>
    obtain ⟨only, each⟩ := foldl_disarmNamed (map := rd32 e 8) s
    have prescaler := foldl_disarmNamed_prescaler (map := rd32 e 8) allTriggers s
    generalize hv : allTriggers.foldl (disarmNamed (rd32 e 8)) s = v at only each prescaler
    have outstanding (i : TrigId) : (v.trigger i).outstanding = (s.trigger i).outstanding := by
      rw [each]
      split <;> rfl
    have waits : setCommandPhase (.instances (rd32 e 8)) v = waitsAt e (.instances (rd32 e 8)) v :=
      setCommandPhase_of_command (x := .execute) (by rw [only]; exact h.held)
    have checked : exec .disableTriggers s = .next (checkInstances (waitsAt e (.instances (rd32 e 8)) v)) := by
      refine h.runs (f := disarmTriggers) rfl ?_
      unfold disarmTriggers
      dsimp only
      rw [hv, waits]
    have kept : v.mgmt = s.mgmt ∧ v.timebase = s.timebase := ⟨by rw [only], by rw [only]⟩
    have facts (u : State) (same : u.trig = v.trig) :
        (∀ i : TrigId, (rd32 e 8).getLsbD i.val = true → (s.trigger i).state = .armed →
          u.trigger i = (s.trigger i).disarmed) ∧
        (∀ i : TrigId, (rd32 e 8).getLsbD i.val = false ∨ (s.trigger i).state ≠ .armed → u.trigger i = s.trigger i) ∧
        ((∃ i, (s.trigger i).state = .armed) →
          (∀ i : TrigId, (s.trigger i).state = .armed → (rd32 e 8).getLsbD i.val = true) → u.trig.prescaler = none) := by
      have entry (i : TrigId) : u.trigger i = v.trigger i := congrArg (·.entries.get i) same
      refine ⟨fun i named armed => ?_, fun i out => ?_, fun some_armed all => ?_⟩
      · rw [entry, each, if_pos ⟨named, armed⟩]
      · rw [entry, each]
        exact if_neg fun both => out.elim (fun no => Bool.false_ne_true (no.symm.trans both.1)) fun no => no both.2
      · rw [same]
        refine prescaler some_armed fun i => ?_
        rw [each]
        split
        · exact fun armed => TrigState.noConfusion armed
        next out => exact fun armed => out ⟨all i armed, armed⟩
    by_cases some_out : ∃ i : TrigId, (rd32 e 8).getLsbD i.val = true ∧ (s.trigger i).outstanding = true
    · have stays : checkInstances (waitsAt e (.instances (rd32 e 8)) v) = waitsAt e (.instances (rd32 e 8)) v :=
        if_pos (by
          obtain ⟨i, named, out⟩ := some_out
          exact List.any_eq_true.mpr ⟨i, mem_allTriggers i, Bool.and_eq_true_iff.mpr ⟨named, (outstanding i).trans out⟩⟩)
      obtain ⟨named, others, stops⟩ := facts (waitsAt e (.instances (rd32 e 8)) v) rfl
      refine ⟨_, checked.trans (congrArg _ stays), named, others, stops, fun no => ?_, fun _ => ?_, ?_⟩
      · obtain ⟨i, here, out⟩ := some_out
        exact absurd ((no i here).symm.trans out) Bool.false_ne_true
      · simp only [waitsAt, kept.1]
      · rw [waitsAt, only]
    · have done : checkInstances (waitsAt e (.instances (rd32 e 8)) v) = answered e .success 0 0 v :=
        (if_neg fun any => by
          obtain ⟨i, -, both⟩ := List.any_eq_true.mp any
          obtain ⟨named, out⟩ := Bool.and_eq_true_iff.mp both
          exact some_out ⟨i, named, (outstanding i).symm.trans out⟩).trans
          (completeCommand_of_command (phase := .instances (rd32 e 8)) rfl)
      obtain ⟨named, others, stops⟩ := facts (answered e .success 0 0 v) rfl
      refine ⟨_, checked.trans (congrArg _ done), named, others, stops, fun _ => ?_, fun yes => absurd yes some_out, ?_⟩
      · simp only [answered, kept.1, kept.2]
      · rw [answered, only]

end Sys2Proof.Proofs
end

section
/-! SUPPORT. The trigger unit's events (R125 to R132): the tick, a periodic expiry, a falling edge and the end of
holdoff. From them the statement TriggersExpire. -/

namespace Sys2Proof.Machine

variable {s v : State} {i w : TrigId} {k : SlotId} {r : Request} {d : Byte} {n : Half} {x : Word} {p : PortId}
  {b : Bool}

/-! ### The tick (R125) -/

theorem tickPassed_iff : s.tickPassed = true ↔
    s.trig.tickDue = [] ∧ ∃ x, s.trig.prescaler = some x ∧ s.trig.tp.toNat + 1 ≤ (s.timebase - x).toNat := by
  unfold State.tickPassed
  cases s.trig.prescaler <;> simp [State.since, Word]

theorem half_sub_one_eq_zero (c : Half) : c - 1 = 0 ↔ c = 1 := by
  unfold Half at c
  bv_omega

theorem dueAtTick_periodic {E : Trigger} {low : Bool} (armed : E.state = .armed) (kind : E.kind = .periodic) :
    E.dueAtTick low = true ↔ E.downCounter - 1 = 0 := by
  rw [half_sub_one_eq_zero]
  simp [Trigger.dueAtTick, armed, kind]

theorem dueAtTick_edge {E : Trigger} {low : Bool} (armed : E.state = .armed) (kind : E.kind = .alert)
    (mode : E.alertMode = .edge) : E.dueAtTick low = true ↔ E.holdoffCtr = 1 := by
  simp [Trigger.dueAtTick, armed, kind, mode]

theorem dueAtTick_level {E : Trigger} {low : Bool} (armed : E.state = .armed) (kind : E.kind = .alert)
    (mode : E.alertMode = .level) : E.dueAtTick low = true ↔ E.holdoffCtr = 1 ∨
      low = true ∧ E.outstanding = false ∧ E.holdoffCtr = 0 ∧ E.holdoffEnded = false := by
  simp [Trigger.dueAtTick, armed, kind, mode, and_assoc]

theorem dueAtTick_of_not_armed {E : Trigger} {low : Bool} (h : E.state ≠ .armed) : E.dueAtTick low = false := by
  simp [Trigger.dueAtTick, h]

theorem ticked_of_not_armed {E : Trigger} (rest : E.state ≠ .armed) : E.ticked = E := if_neg rest

theorem ticked_periodic {E : Trigger} (armed : E.state = .armed) (kind : E.kind = .periodic) :
    E.ticked = { E with downCounter := E.downCounter - 1 } := by simp [Trigger.ticked, armed, kind]

theorem ticked_alert {E : Trigger} (armed : E.state = .armed) (kind : E.kind = .alert) :
    E.ticked = { E with holdoffCtr := if E.holdoffCtr = 0 then 0 else E.holdoffCtr - 1 } := by
  simp only [Trigger.ticked, armed, kind, if_true]

/-- The state after the tick (R125). -/
def State.ticked (s : State) (alerts : BitVec 4) : State :=
  { s with
    trig := { s.trig with
      entries := s.trig.entries.map Trigger.ticked, prescaler := some s.timebase,
      tickDue := allTriggers.filter fun t => (s.trigger t).dueAtTick ((alertLevels alerts).get (s.trigger t).alertPort),
      tickTime := s.timebase, alertLow := alertLevels alerts } }

theorem takeTick_passed {alerts : BitVec 4} (h : s.tickPassed = true) : takeTick alerts s = s.ticked alerts := if_pos h

theorem trigger_ticked {alerts : BitVec 4} : (s.ticked alerts).trigger i = (s.trigger i).ticked :=
  get_map ..

theorem mem_ticked {alerts : BitVec 4} : i ∈ (s.ticked alerts).trig.tickDue ↔
    (s.trigger i).dueAtTick (alerts.getLsbD (s.trigger i).alertPort.val) = true := by
  simp [State.ticked, mem_allTriggers, alertLevels_get]

theorem exec_tick_passed {alerts : BitVec 4} (run : Running s) (passed : s.tickPassed = true) :
    exec (.tick alerts) s = .next (s.ticked alerts) :=
  congrArg Host.Outcome.next ((whenRunning_of_running run).trans (takeTick_passed passed))

theorem exec_tick_early {alerts : BitVec 4} (run : Running s) (early : s.trig.tickDue ≠ [] ∨ s.trig.prescaler = none ∨
    ∃ x, s.trig.prescaler = some x ∧ (s.timebase - x).toNat < s.trig.tp.toNat + 1) :
    exec (.tick alerts) s = .next s := by
  refine congrArg Host.Outcome.next ((whenRunning_of_running run).trans (if_neg fun passed => ?_))
  obtain ⟨none_due, x, started, late⟩ := tickPassed_iff.mp passed
  obtain due | never | ⟨y, since, soon⟩ := early
  · exact due none_due
  · exact Option.some_ne_none x (started.symm.trans never)
  · cases started.symm.trans since
    omega

/-! ### A periodic expiry (R126) -/

theorem periodicExpiry_idle (h : s.trig.tickDue.head? ≠ some i) : periodicExpiry i s = s :=
  if_neg (by simp [State.nextDue, h])

/-- The reload of a periodic entry's down-counter. -/
def Trigger.reloaded (E : Trigger) : Trigger := { E with downCounter := E.period }

theorem skipped_reloaded (E : Trigger) (b : Bool) : (E.sequenced.skipped b).reloaded =
    { E with
      sequence := E.sequence + 1, skips := satInc E.skips, downCounter := E.period,
      reports := if b then satInc E.reports else E.reports } := rfl

/-- The entry's expiry at the last tick, before the reload. -/
def State.tickExpiry (s : State) (i : TrigId) : State := expire i s.trig.tickTime false (popDue s)

theorem periodicExpiry_due (due : s.trig.tickDue.head? = some i) (kind : (s.trigger i).kind = .periodic) :
    periodicExpiry i s =
      if (s.trigger i).oneShot then disarm i (s.tickExpiry i)
      else (s.tickExpiry i).modTrigger i Trigger.reloaded := by
  have once : ((s.tickExpiry i).trigger i).oneShot = (s.trigger i).oneShot := by
    rw [State.tickExpiry, ownEntry_expire.own]
    rfl
  rw [← once]
  exact if_pos (by simp [State.nextDue, due, kind])

/-! ### A falling edge (R128) -/

theorem alertEdge_idle (h : (s.trigger w).state ≠ .armed ∨ (s.trigger w).kind = .periodic ∨ (s.trigger w).alertPort ≠ p) :
    alertEdge p s w = s :=
  if_neg (by rcases h with e | e | e <;> simp [e])

theorem trigger_alertEdge_of_ne (h : w ≠ i) : (alertEdge p s i).trigger w = s.trigger w := by
  have expires : ∀ b, (expire i s.timebase b s).trigger w = s.trigger w := fun b => ownEntry_expire.others w h
  have changed : ∀ f, (s.modTrigger i f).trigger w = s.trigger w := fun f => by rw [trigger_modTrigger, if_neg h.symm]
  unfold alertEdge
  dsimp only
  repeat' split
  all_goals simp only [expires, changed]

/-- The one entry that watches the pin takes the edge. -/
theorem exec_alertFallingTransition (run : Running s)
    (alone : ∀ w, w ≠ i → (s.trigger w).state ≠ .armed ∨ (s.trigger w).kind = .periodic ∨ (s.trigger w).alertPort ≠ p) :
    exec (.alertFallingTransition p) s = .next (alertEdge p (setAlert p true s) i) := by
  refine congrArg Host.Outcome.next ((whenRunning_of_running run).trans ?_)
  exact foldl_one (get := State.trigger) (fun _ => trigger_alertEdge_of_ne) nodup_allTriggers (mem_allTriggers i)
    fun w _ ne u same => alertEdge_idle (by rw [same]; exact alone w ne)

theorem alertEdge_level (armed : (s.trigger i).state = .armed) (kind : (s.trigger i).kind = .alert)
    (pin : (s.trigger i).alertPort = p) (mode : (s.trigger i).alertMode = .level) :
    alertEdge p s i = if s.heldOff i then s else expire i s.timebase false s := by
  unfold alertEdge
  dsimp only
  rw [if_pos (by simp [armed, kind, pin]), mode]

theorem alertEdge_edge (armed : (s.trigger i).state = .armed) (kind : (s.trigger i).kind = .alert)
    (pin : (s.trigger i).alertPort = p) (mode : (s.trigger i).alertMode = .edge) :
    alertEdge p s i = if !s.heldOff i then expire i s.timebase false s
      else if (s.trigger i).latched.isNone then s.modTrigger i fun E => { E with latched := some s.timebase }
      else expire i s.timebase true s := by
  unfold alertEdge
  dsimp only
  rw [if_pos (by simp [armed, kind, pin]), mode]

/-! ### The end of holdoff (R127) -/

theorem exec_endOfHoldoff_due (run : Running s) (kind : (s.trigger i).kind = .alert) (pin : (s.trigger i).alertPort = p)
    (due : s.trig.tickDue.head? = some i) :
    exec (.endOfHoldoff i b) s = .next (afterHoldoff i b s.trig.tickTime (setAlert p b (popDue s))) := by
  refine congrArg Host.Outcome.next ((whenRunning_of_running run).trans ?_)
  rw [holdoffEnd, if_pos kind, if_pos (by simp [State.nextDue, due]), pin]

theorem exec_endOfHoldoff_ended (run : Running s) (kind : (s.trigger i).kind = .alert) (pin : (s.trigger i).alertPort = p)
    (out : i ∉ s.trig.tickDue) (ended : (s.trigger i).holdoffEnded = true) :
    exec (.endOfHoldoff i b) s = .next (afterHoldoff i b s.timebase
      (setAlert p b (s.modTrigger i fun E => { E with holdoffEnded := false }))) := by
  refine congrArg Host.Outcome.next ((whenRunning_of_running run).trans ?_)
  have other : s.nextDue i = false := beq_eq_false_iff_ne.mpr fun head => out (List.mem_of_head? head)
  rw [holdoffEnd, if_pos kind, if_neg (by rw [other]; exact Bool.false_ne_true), if_pos ended, pin]

theorem heldOff_eq_false : s.heldOff i = false ↔ (s.trigger i).outstanding = false ∧ (s.trigger i).holdoffCtr = 0 ∧
    (s.trigger i).holdoffEnded = false ∧ i ∉ s.trig.tickDue := by
  simp [State.heldOff, and_assoc]

theorem heldOff_setAlert : (setAlert p b s).heldOff i = s.heldOff i := rfl

theorem afterHoldoff_level_high (mode : (s.trigger i).alertMode = .level) : afterHoldoff i false x s = s := by
  unfold afterHoldoff
  split
  · rw [mode]
    cases (s.trigger i).latched <;> rfl
  · rfl

theorem afterHoldoff_level_low (mode : (s.trigger i).alertMode = .level) (armed : (s.trigger i).state = .armed)
    (free : s.heldOff i = false) : afterHoldoff i true x s = expire i x false s := by
  unfold afterHoldoff
  rw [if_pos (by simp [armed, free]), mode]
  cases (s.trigger i).latched <;> rfl

theorem afterHoldoff_edge_none (mode : (s.trigger i).alertMode = .edge) (latched : (s.trigger i).latched = none) :
    afterHoldoff i b x s = s := by
  unfold afterHoldoff
  split
  · rw [mode, latched]
  · rfl

theorem afterHoldoff_edge_some {c : Word} (mode : (s.trigger i).alertMode = .edge) (armed : (s.trigger i).state = .armed)
    (free : s.heldOff i = false) (latched : (s.trigger i).latched = some c) :
    afterHoldoff i b x s = expire i c false (s.modTrigger i fun E => { E with latched := none }) := by
  unfold afterHoldoff
  rw [if_pos (by simp [armed, free]), mode, latched]

/-- The reload of the entry's counter leaves its transaction alone. -/
theorem Made.modTrigger {f : Trigger → Trigger} (h : Made s v i k r x) : Made s (v.modTrigger i f) i k r x :=
  ⟨h.instanceOf, h.longer, h.listed, h.ports, h.txns, fun w hw => by
    rw [trigger_modTrigger, if_neg hw.symm]
    exact h.entries w hw⟩

theorem Made.all (h : Made s v i k r x) :
    v.txn k = some (newInstance i (s.trigger i) r (s.trigger i).sequence x s.timebase) ∧
      (v.port (portOf r.port)).list.length = (s.port (portOf r.port)).list.length + 1 ∧
      k ∈ (v.port (portOf r.port)).list ∧ (∀ q, q ≠ portOf r.port → v.port q = s.port q) ∧
      (∀ j, j ≠ k → v.txn j = s.txn j) ∧ ∀ w, w ≠ i → v.trigger w = s.trigger w :=
  ⟨h.instanceOf, h.longer, h.listed, h.ports, h.txns, h.entries⟩

/-! ### The expiries of an ALERT entry that make their transaction -/

section

variable (run : Running s) (template : (s.trigger i).template = some r) (slot : s.freeTriggerSlot = some k)
  (room : (s.port (portOf r.port)).list.length < 32) (armed : (s.trigger i).state = .armed)
  (kind : (s.trigger i).kind = .alert) (pin : (s.trigger i).alertPort = p)
include run template slot room armed kind pin

theorem edge_makes (free : s.heldOff i = false)
    (alone : ∀ w, w ≠ i → (s.trigger w).state ≠ .armed ∨ (s.trigger w).kind = .periodic ∨ (s.trigger w).alertPort ≠ p) :
    ∃ u, exec (.alertFallingTransition p) s = .next u ∧ Made s u i k r s.timebase ∧
      u.trigger i = (s.trigger i).fired := by
  have fires : alertEdge p (setAlert p true s) i = expire i s.timebase false (setAlert p true s) := by
    cases mode : (s.trigger i).alertMode
    · exact (alertEdge_edge (s := setAlert p true s) armed kind pin mode).trans
        (if_pos (by rw [heldOff_setAlert, free]; rfl))
    · exact (alertEdge_level (s := setAlert p true s) armed kind pin mode).trans
        (if_neg (by rw [heldOff_setAlert, free]; exact Bool.false_ne_true))
  exact ⟨_, (exec_alertFallingTransition run alone).trans (congrArg _ fires),
    made_expire (v := setAlert p true s) rfl (fun _ _ => rfl) rfl rfl rfl (heldOff_eq_false.mp free).1 template slot room⟩

section

variable (mode : (s.trigger i).alertMode = .level) (out : (s.trigger i).outstanding = false)
  (quiet : (s.trigger i).holdoffCtr = 0)
include mode out quiet

theorem level_makes_due (due : s.trig.tickDue.head? = some i) (later : i ∉ s.trig.tickDue.tail)
    (ended : (s.trigger i).holdoffEnded = false) :
    ∃ u, exec (.endOfHoldoff i true) s = .next u ∧ Made s u i k r s.trig.tickTime ∧
      u.trigger i = (s.trigger i).fired :=
  ⟨_, (exec_endOfHoldoff_due run kind pin due).trans (congrArg _ (afterHoldoff_level_low (by exact mode) armed
    (heldOff_eq_false.mpr ⟨out, quiet, ended, later⟩))),
    made_expire (v := setAlert p true (popDue s)) rfl (fun _ _ => rfl) rfl rfl rfl out template slot room⟩

theorem level_makes_ended (none_due : i ∉ s.trig.tickDue) (ended : (s.trigger i).holdoffEnded = true) :
    ∃ u, exec (.endOfHoldoff i true) s = .next u ∧ Made s u i k r s.timebase ∧
      u.trigger i = { s.trigger i with
        sequence := (s.trigger i).sequence + 1, outstanding := true, holdoffEnded := false } := by
  generalize hv : setAlert p true (s.modTrigger i fun E => { E with holdoffEnded := false }) = v
  have entry : v.trigger i = { s.trigger i with holdoffEnded := false } := by
    rw [← hv]
    exact (trigger_modTrigger ..).trans (if_pos rfl)
  have only : v = { s with trig := v.trig } := by rw [← hv]; rfl
  have others : ∀ w, w ≠ i → v.trigger w = s.trigger w := fun w hw => by
    rw [← hv]
    exact (trigger_modTrigger ..).trans (if_neg hw.symm)
  have due : v.trig.tickDue = s.trig.tickDue := by rw [← hv]; rfl
  have free : v.heldOff i = false := heldOff_eq_false.mpr (by rw [entry, due]; exact ⟨out, quiet, rfl, none_due⟩)
  obtain ⟨made, fired⟩ := made_expire (x := s.timebase) only others (by rw [entry]) (by rw [entry]) (by rw [entry])
    (by rw [entry]; exact out) (by rw [entry]; exact template) slot room
  refine ⟨_, (exec_endOfHoldoff_ended run kind pin none_due ended).trans (congrArg _ ?_), made, ?_⟩
  · rw [hv]
    exact afterHoldoff_level_low (by rw [entry]; exact mode) (by rw [entry]; exact armed) free
  · rw [fired, entry]
    rfl

end

theorem edge_makes_latched {c : Word} (mode : (s.trigger i).alertMode = .edge) (out : (s.trigger i).outstanding = false)
    (quiet : (s.trigger i).holdoffCtr = 0) (ended : (s.trigger i).holdoffEnded = false)
    (due : s.trig.tickDue.head? = some i) (later : i ∉ s.trig.tickDue.tail) (latched : (s.trigger i).latched = some c) :
    ∃ u, exec (.endOfHoldoff i b) s = .next u ∧ Made s u i k r c ∧
      u.trigger i = { s.trigger i with
        sequence := (s.trigger i).sequence + 1, outstanding := true, latched := none } := by
  generalize hv : ((setAlert p b (popDue s)).modTrigger i fun E => { E with latched := none }) = v
  have entry : v.trigger i = { s.trigger i with latched := none } := by
    rw [← hv]
    exact (trigger_modTrigger ..).trans (if_pos rfl)
  have only : v = { s with trig := v.trig } := by rw [← hv]; rfl
  have others : ∀ w, w ≠ i → v.trigger w = s.trigger w := fun w hw => by
    rw [← hv]
    exact (trigger_modTrigger ..).trans (if_neg hw.symm)
  obtain ⟨made, fired⟩ := made_expire (x := c) only others (by rw [entry]) (by rw [entry]) (by rw [entry])
    (by rw [entry]; exact out) (by rw [entry]; exact template) slot room
  refine ⟨_, (exec_endOfHoldoff_due run kind pin due).trans (congrArg _ ?_), made, ?_⟩
  · rw [← hv]
    exact afterHoldoff_edge_some (by exact mode) armed (heldOff_eq_false.mpr ⟨out, quiet, ended, later⟩) latched
  · rw [fired, entry]
    rfl

end

end Sys2Proof.Machine

namespace Sys2Proof.Proofs

open Sys2Proof.Machine

/-- Settles O58: each event comes down to one expiry or skip of its entry, in a state that differs from this one in
the trigger unit alone. -/
theorem triggersExpire : Obligations.TriggersExpire := by
  intro s run
  refine ⟨fun alerts => ⟨exec_tick_early run, fun x none_due started late => ?tick⟩,
    fun i k r template kind => ⟨fun other => ?out, fun due free slot room keeps => ?made, fun due out silent => ?overrun⟩,
    fun i r d template kind due keeps why => ?reported,
    fun i r p template armed kind pin mode alone => ?level,
    fun i k r p template armed kind pin mode alone => ?edge⟩
  case tick =>
    have passed : s.tickPassed = true := tickPassed_iff.mpr ⟨none_due, x, started, late⟩
    refine ⟨s.ticked alerts, exec_tick_passed run passed, rfl, rfl, rfl, fun i => ?_⟩
    rw [trigger_ticked, mem_ticked]
    refine ⟨fun rest => ⟨ticked_of_not_armed rest, ?_⟩, fun armed kind => ?_, fun armed kind mode =>
      ⟨fun zero => ?_, fun counts => ?_⟩, fun armed kind mode => ⟨ticked_alert armed kind, dueAtTick_level armed kind mode⟩⟩
    · rw [dueAtTick_of_not_armed rest]
      exact Bool.false_ne_true
    · rw [ticked_periodic armed kind]
      exact ⟨rfl, dueAtTick_periodic armed kind⟩
    · rw [dueAtTick_edge armed kind mode, zero, ticked_alert armed kind, if_pos zero, ← zero]
      exact ⟨rfl, by rw [zero]; decide⟩
    · rw [dueAtTick_edge armed kind mode, ticked_alert armed kind, if_neg counts]
      exact ⟨rfl, (half_sub_one_eq_zero _).symm⟩
  case out => exact congrArg Host.Outcome.next ((whenRunning_of_running run).trans (periodicExpiry_idle other))
  case made =>
    obtain ⟨made, fired⟩ := made_expire (s := s) (v := popDue s) (x := s.trig.tickTime) rfl (fun _ _ => rfl)
      rfl rfl rfl free template slot room
    refine ⟨_, congrArg Host.Outcome.next ((whenRunning_of_running run).trans ((periodicExpiry_due due kind).trans
      (if_neg (by rw [keeps]; exact Bool.false_ne_true)))), made.modTrigger.all, ?_, ?_⟩
    · rw [trigger_modTrigger, if_pos rfl, State.tickExpiry, fired]
      rfl
    · exact congrArg TrigUnit.tickDue ownEntry_expire.trig
  case overrun =>
    have skips : s.tickExpiry i = ((popDue s).modTrigger i fun E =>
        { E with sequence := E.sequence + 1, skips := satInc E.skips }) := by
      have sequenced : s.tickExpiry i = skip i detailOverrun _ _ ((popDue s).modTrigger i Trigger.sequenced) :=
        expire_overrun (.inl out)
      exact sequenced.trans (skip_sequenced_unreported silent)
    have runs : exec (.periodicExpiry i) s = .next (periodicExpiry i s) :=
      congrArg Host.Outcome.next (whenRunning_of_running run)
    rw [runs, periodicExpiry_due due kind, skips]
    refine ⟨fun keeps => ⟨_, congrArg _ (if_neg (by rw [keeps]; exact Bool.false_ne_true)), ?_, rfl, fun w hw => ?_⟩,
      fun once => ⟨_, congrArg _ (if_pos once), ?_⟩⟩
    · rw [modTrigger_modTrigger, trigger_modTrigger, if_pos rfl]
      rfl
    · rw [modTrigger_modTrigger, trigger_modTrigger, if_neg hw.symm]
      rfl
    · rw [trigger_disarm, if_pos rfl, trigger_modTrigger, if_pos rfl]
      rfl
  case reported =>
    let v := (popDue s).modTrigger i Trigger.sequenced
    have expires : s.tickExpiry i = skip i d (s.trigger i).sequence s.trig.tickTime v := by
      obtain ⟨out, rfl⟩ | ⟨free, rfl, full⟩ := why
      · exact expire_overrun (.inl out)
      · exact expire_noRoom free template full
    have entry : v.trigger i = (s.trigger i).sequenced := (trigger_modTrigger ..).trans (if_pos rfl)
    obtain ⟨slots, ports⟩ := skip_slots (s := v) (i := i) (d := d)
      (n := (s.trigger i).sequence) (x := s.trig.tickTime)
    have reloads : exec (.periodicExpiry i) s = .next ((s.tickExpiry i).modTrigger i Trigger.reloaded) :=
      congrArg Host.Outcome.next ((whenRunning_of_running run).trans ((periodicExpiry_due due kind).trans
        (if_neg (by rw [keeps]; exact Bool.false_ne_true))))
    have counted (b : Bool) (h : (s.tickExpiry i).trigger i = (v.trigger i).skipped b) :
        ((s.tickExpiry i).modTrigger i Trigger.reloaded).trigger i =
          ((s.trigger i).sequenced.skipped b).reloaded := by
      rw [trigger_modTrigger, if_pos rfl, h, entry]
    rw [reloads]
    refine ⟨_, rfl, by rw [expires]; exact slots, by rw [expires]; exact ports,
      fun silent => ?_, fun reports => ⟨fun running room => ?_, fun running full => ?_, fun stopped => ?_⟩⟩
    · have skips : s.tickExpiry i = v.modTrigger i (Trigger.skipped false) :=
        expires.trans (skip_unreported (by rw [entry]; exact silent))
      exact ⟨(counted false (by rw [skips, trigger_modTrigger, if_pos rfl])).trans (skipped_reloaded _ false), by rw [skips]; rfl⟩
    all_goals
      have reports : (v.trigger i).reportSkips = true := by rw [entry]; exact reports
      have template : (v.trigger i).template = some r := by rw [entry]; exact template
      have queue : (v.trigger i).cq = (s.trigger i).cq := by rw [entry]; rfl
    · have skips := expires.trans (skip_accepted reports template (by rw [queue]; exact running) room)
      rw [queue] at skips
      exact ⟨(counted true (by rw [skips, with_comp_trigger, trigger_modTrigger, if_pos rfl])).trans (skipped_reloaded _ true),
        by rw [skips]; rfl⟩
    · have skips := expires.trans (skip_dropped reports template (by rw [queue]; exact running) full)
      exact ⟨(counted false (by rw [skips, trigger_modTrigger, if_pos rfl])).trans (skipped_reloaded _ false), by rw [skips]; rfl⟩
    · have skips := expires.trans (skip_discarded reports template (by rw [queue]; exact stopped))
      exact ⟨(counted true (by rw [skips, trigger_modTrigger, if_pos rfl])).trans (skipped_reloaded _ true), by rw [skips]; rfl⟩
  case level =>
    have edge : exec (.alertFallingTransition p) s = .next _ := (exec_alertFallingTransition run alone).trans
      (congrArg _ (alertEdge_level (s := setAlert p true s) armed kind pin mode))
    refine ⟨fun held => edge.trans (congrArg _ (if_pos held)), fun free full silent => ?_, fun k slot room =>
      ⟨fun free => ?_, fun due later out quiet ended => ?_, fun none_due ended out quiet => ?_⟩, fun due later => ?_,
      fun none_due ended => ?_⟩
    · refine edge.trans (congrArg _ ((if_neg (by exact Bool.eq_false_iff.mp free)).trans ?_))
      exact (expire_noRoom (s := setAlert p true s) (heldOff_eq_false.mp free).1 template full).trans
        (skip_sequenced_unreported (s := setAlert p true s) silent)
    · obtain ⟨u, runs, made, fired⟩ := edge_makes run template slot room armed kind pin free alone
      exact ⟨u, runs, made.all, fired⟩
    · obtain ⟨u, runs, made, fired⟩ := level_makes_due run template slot room armed kind pin mode out quiet due later ended
      exact ⟨u, runs, made.all, fired⟩
    · obtain ⟨u, runs, made, fired⟩ :=
        level_makes_ended run template slot room armed kind pin mode out quiet none_due ended
      exact ⟨u, runs, made.all, fired⟩
    · exact (exec_endOfHoldoff_due run kind pin due).trans (congrArg _ (afterHoldoff_level_high (by exact mode)))
    · refine (exec_endOfHoldoff_ended run kind pin none_due ended).trans (congrArg _ (afterHoldoff_level_high ?_))
      exact (congrArg Trigger.alertMode ((trigger_modTrigger ..).trans (if_pos rfl))).trans mode
  case edge =>
    have taken : exec (.alertFallingTransition p) s = .next _ := (exec_alertFallingTransition run alone).trans
      (congrArg _ (alertEdge_edge (s := setAlert p true s) armed kind pin mode))
    refine ⟨fun free slot room => ?_, fun held => ⟨fun none_yet => ?_, fun latched silent => ?_⟩,
      fun b c due later out quiet ended => ⟨fun none_yet => ?_, fun latched slot room => ?_⟩⟩
    · obtain ⟨u, runs, made, fired⟩ := edge_makes run template slot room armed kind pin free alone
      exact ⟨u, runs, made.all, fired⟩
    · refine taken.trans (congrArg _ ((if_neg (by rw [heldOff_setAlert, held]; decide)).trans (if_pos ?_)))
      exact Option.isNone_iff_eq_none.mpr none_yet
    · refine taken.trans (congrArg _ ((if_neg (by rw [heldOff_setAlert, held]; decide)).trans ((if_neg ?_).trans ?_)))
      · exact fun none_yet => latched (Option.isNone_iff_eq_none.mp none_yet)
      · exact (expire_overrun (s := setAlert p true s) (.inr rfl)).trans
          (skip_sequenced_unreported (s := setAlert p true s) silent)
    · exact (exec_endOfHoldoff_due run kind pin due).trans (congrArg _ (afterHoldoff_edge_none (by exact mode) none_yet))
    · obtain ⟨u, runs, made, fired⟩ :=
        edge_makes_latched run template slot room armed kind pin mode out quiet ended due later latched
      exact ⟨u, runs, made.all, fired⟩

end Sys2Proof.Proofs
end

section
/-! SUPPORT. The end of service of a transaction (R22, R36, R51 to R54, R62): its record posted, its completion
suppressed, its bytes drained; and the end of an attempt and the byte-boundary stop that lead there (R52, R81, R82). -/

namespace Sys2Proof.Machine

variable {s v : State} {p q : PortId} {k j : SlotId} {t x : Txn}

/-! ### Posting (R54, R62) -/

/-- The port after its in-service transaction has left the list (R54, R62). -/
def Port.left (P : Port) : Port :=
  { P with
    list := P.list.tail, inService := none, pendingResult := none,
    stats := { P.stats with completed := P.stats.completed + 1 } }

/-- The state after the in-service transaction of port `p`, in slot `k`, has handed over its record as `x`. -/
def State.posted (s : State) (p : PortId) (k : SlotId) (x : Txn) : State :=
  { (s.setSlot k (.txn { x with state := .recorded })).modPort p Port.left with
    comp := { s.comp with holding := s.comp.holding ++ [serviceEntry k x] } }

theorem port_posted : (s.posted p k x).port q = if p = q then (s.port p).left else s.port q :=
  port_modPort (s.setSlot k (.txn { x with state := .recorded })) p q Port.left

theorem port_posted_self : (s.posted p k x).port p = (s.port p).left := port_posted.trans (if_pos rfl)

theorem txn_posted : (s.posted p k x).txn j = if k = j then some { x with state := .recorded } else s.txn j := by
  refine (txn_setSlot ..).trans ?_
  split <;> rfl

@[simp] theorem posted_comp : (s.posted p k x).comp =
    { s.comp with holding := s.comp.holding ++ [serviceEntry k x] } := rfl
@[simp] theorem posted_rqs : (s.posted p k x).rqs = s.rqs := rfl
@[simp] theorem posted_cqs : (s.posted p k x).cqs = s.cqs := rfl
@[simp] theorem posted_mgmt : (s.posted p k x).mgmt = s.mgmt := rfl
@[simp] theorem posted_trig : (s.posted p k x).trig = s.trig := rfl

theorem posted_setSlot {y : Slot} : (s.setSlot k y).posted p k x = s.posted p k x := by
  unfold State.posted
  rw [setSlot_setSlot]
  rfl

theorem leaveList_left (alone : LeavesAlone s p) : leaveList p s = s.modPort p Port.left :=
  leaveList_eq s p alone.1 alone.2

/-- An offered record whose queue runs enters the list with room, and the transaction leaves its own (R54, R111). -/
theorem post_leaves (served : (s.port p).inService = some k) (held : s.txn k = some x)
    (running : (s.cq x.cq).state = .running) (room : s.comp.holding.length < Config.holdingCapacity) :
    post p k s = leaveList p { s.setSlot k (.txn { x with state := .recorded }) with
      comp := { s.comp with holding := s.comp.holding ++ [serviceEntry k x] } } := by
  let y : Txn := { x with state := .posting }
  let v := s.setSlot k (.txn y)
  have fixed : v.txn k = some y := (txn_setSlot ..).trans (if_pos rfl)
  have posting : v.posting p = some (k, y) := by
    unfold State.posting
    rw [show (v.port p).inService = some k from served]
    dsimp only
    rw [fixed]
    rfl
  let w : State := { v with comp := { s.comp with holding := s.comp.holding ++ [serviceEntry k y] } }
  have offered : tryOffer (serviceEntry k y) v = some w := (if_pos running).trans (if_pos room)
  calc post p k s = offerService p v := by
        unfold post
        rw [modTxn_of_txn held]
    _ = serviceAccepted p k w := by
        unfold offerService
        rw [posting]
        dsimp only
        rw [offered]
    _ = leaveList p (w.setSlot k (.txn { x with state := .recorded })) := by
        unfold serviceAccepted
        rw [modTxn_of_txn (t := y) (by exact fixed)]
    _ = _ := by
        rw [← setSlot_setSlot (s := s) k (.txn y)]
        rfl

theorem post_eq (served : (s.port p).inService = some k) (held : s.txn k = some x)
    (running : (s.cq x.cq).state = .running) (room : s.comp.holding.length < Config.holdingCapacity)
    (alone : LeavesAlone s p) : post p k s = s.posted p k x := by
  rw [post_leaves served held running room]
  exact leaveList_left alone

/-- On a port with a disable pending the bus engine is told once the transaction has left the list (R59). -/
theorem leaveList_pending (holds : ∀ q, (s.rq q).hold = none) (pending : (s.port p).disablePending = true) :
    leaveList p s = tellDisable p (s.modPort p Port.left) := by
  have port : ((s.modPort p Port.left).port p).disablePending = true := by
    rw [port_modPort, if_pos rfl]
    exact pending
  unfold leaveList
  dsimp only
  rw [offerPlace_none (by exact holds)]
  exact if_pos port

theorem serviceEntry_request (origin : ∃ q, x.origin = .rq q) :
    serviceEntry k x = ⟨txnRecord x, x.cq, x.req.notify, some k⟩ := by
  obtain ⟨q, origin⟩ := origin
  simp [serviceEntry, origin]

/-- A record posted from a state that differs from `r` in nothing a posting touches. -/
theorem recordPosted_posted {r : State} (origin : ∃ q, x.origin = .rq q) (comp : s.comp = r.comp) (rqs : s.rqs = r.rqs)
    (cqs : s.cqs = r.cqs) (list : (s.port p).list = (r.port p).list)
    (completed : (s.port p).stats.completed = (r.port p).stats.completed) :
    RecordPosted r (s.posted p k x) p k x := by
  refine ⟨?_, txn_posted.trans (if_pos rfl), ?_, ?_, ?_, ?_, rqs, cqs⟩
  · rw [posted_comp, serviceEntry_request origin, comp]
  all_goals rw [port_posted_self]
  · rw [Port.left, list]
  · rfl
  · rfl
  · rw [Port.left, completed]

theorem CanPost.congr (h : CanPost s p t) (origin : x.origin = t.origin) (queue : x.cq = t.cq) (comp : v.comp = s.comp)
    (rqs : v.rqs = s.rqs) (cqs : v.cqs = s.cqs) (pending : (v.port p).disablePending = (s.port p).disablePending) :
    CanPost v p x := by
  obtain ⟨request, running, room, holds, quiet⟩ := h
  refine ⟨by rw [origin]; exact request, ?_, by rw [comp]; exact room, fun q => ?_, by rw [pending]; exact quiet⟩
  · unfold State.cq
    rw [cqs, queue]
    exact running
  · unfold State.rq
    rw [rqs]
    exact holds q

/-! ### The end of service (R54) -/

theorem serviceEnd_post (origin : ∃ q, x.origin = .rq q) (keeps : x.result ≠ .ok ∨ x.req.suppress = false)
    (held : s.txn k = some x) : serviceEnd p k s = post p k s := by
  obtain ⟨q, origin⟩ := origin
  unfold serviceEnd
  rw [held]
  dsimp only
  rw [origin]
  dsimp only
  rw [if_neg (by rcases keeps with h | h <;> simp [h])]

/-- A request's transaction whose result is fixed is posted, unless it is OK and suppressed. -/
theorem serviceEnd_posts (served : (s.port p).inService = some k) (keeps : x.result ≠ .ok ∨ x.req.suppress = false)
    (can : CanPost s p x) : serviceEnd p k (s.setSlot k (.txn x)) = s.posted p k x := by
  obtain ⟨request, running, room, alone⟩ := can
  have held : (s.setSlot k (.txn x)).txn k = some x := (txn_setSlot ..).trans (if_pos rfl)
  rw [serviceEnd_post request keeps held, post_eq (by exact served) held running room alone]
  exact posted_setSlot

/-- A result fixed outside an attempt: the counts 0, the end now (R21). -/
def Txn.fixed (t : Txn) (r : Result) (d : Byte) (now : Word) : Txn :=
  { t with result := r, detail := d, segIndex := 0, writeCount := 0, readCount := 0, endTime := now }

/-- The port with what its in-service transaction had received and was to end with discarded. -/
def State.cleared (s : State) (p : PortId) : State := s.modPort p fun P => { P with inbound := [], pendingResult := none }

theorem port_cleared : (s.cleared p).port p = { s.port p with inbound := [], pendingResult := none } :=
  (port_modPort ..).trans (if_pos rfl)

theorem fixOutside_serviceEnd {r : Result} {d : Byte} (held : s.txn k = some t) :
    fixOutside p k r d s = serviceEnd p k ((s.cleared p).setSlot k (.txn (t.fixed r d s.timebase))) := by
  unfold fixOutside
  dsimp only
  rw [modTxn_of_txn (t := t) (by exact held)]
  rfl

theorem fixOutside_posts {r : Result} {d : Byte} (served : (s.port p).inService = some k) (held : s.txn k = some t)
    (failed : r ≠ .ok) (can : CanPost s p t) :
    fixOutside p k r d s = (s.cleared p).posted p k (t.fixed r d s.timebase) := by
  rw [fixOutside_serviceEnd held]
  exact serviceEnd_posts (by rw [port_cleared]; exact served) (.inl failed)
    (can.congr rfl rfl rfl rfl rfl (by rw [port_cleared]))

/-- A result other than OK, fixed outside an attempt, posts its record (R21, R54). -/
theorem recordPosted_fixOutside {r : Result} {d : Byte} (served : (s.port p).inService = some k)
    (held : s.txn k = some t) (failed : r ≠ .ok) (can : CanPost s p t) :
    RecordPosted s (fixOutside p k r d s) p k { t with
      state := .posting, result := r, detail := d, segIndex := 0, writeCount := 0, readCount := 0,
      endTime := s.timebase } := by
  rw [fixOutside_posts served held failed can]
  exact recordPosted_posted (x := t.fixed r d s.timebase) can.1 rfl rfl rfl (by rw [port_cleared]) (by rw [port_cleared])

end Sys2Proof.Machine
end

section
/-! SUPPORT. The end of an attempt: suppressed, drained, retried (R51 to R53, R81), and the byte-boundary stop that a
deadline or an ABORT asks for (R82). -/

namespace Sys2Proof.Machine

variable {s v r₀ : State} {p : PortId} {q : RqId} {k j : SlotId} {t x : Txn} {r : Result} {d : Byte} {now : Word}
  {E : Engine}

/-! ### A suppressed completion (R22, R54) -/

/-- The state after the in-service transaction of port `p`, in slot `k` and of queue `q`, has completed without a
record. -/
def State.suppressed (s : State) (p : PortId) (k : SlotId) (q : RqId) : State :=
  ((s.setSlot k .free).modRq q fun c => { c with openCount := c.openCount - 1 }).modPort p Port.left

theorem finalize_request (held : s.txn k = some x) (origin : x.origin = .rq q) (holds : ∀ q, (s.rq q).hold = none)
    (kept : (s.rq q).state ≠ .deleting) :
    finalize k s = (s.setSlot k .free).modRq q fun c => { c with openCount := c.openCount - 1 } := by
  have hold : (((s.setSlot k .free).modRq q fun c => { c with openCount := c.openCount - 1 }).rq q).hold = none := by
    rw [rq_modRq, if_pos rfl]
    exact holds q
  have state : (((s.setSlot k .free).modRq q fun c => { c with openCount := c.openCount - 1 }).rq q).state =
      (s.rq q).state := by
    rw [rq_modRq, if_pos rfl]
    rfl
  unfold finalize
  rw [held]
  dsimp only
  rw [origin]
  dsimp only
  unfold examineHold State.held
  rw [hold]
  dsimp only
  unfold deletionEnd
  rw [state, if_neg (by simp [kept])]

theorem serviceEnd_suppressed (ok : x.result = .ok) (suppress : x.req.suppress = true) (origin : x.origin = .rq q)
    (alone : LeavesAlone s p) (kept : (s.rq q).state ≠ .deleting) :
    serviceEnd p k (s.setSlot k (.txn x)) = s.suppressed p k q := by
  have held : (s.setSlot k (.txn x)).txn k = some x := (txn_setSlot ..).trans (if_pos rfl)
  unfold serviceEnd
  rw [held]
  dsimp only
  rw [origin]
  dsimp only
  rw [if_pos (by simp [ok, suppress]), finalize_request held origin (by exact alone.1) (by exact kept), setSlot_setSlot]
  refine leaveList_left ⟨fun y => ?_, alone.2⟩
  rw [rq_modRq]
  split
  next => exact alone.1 q
  next => exact alone.1 y

theorem suppressed_of {r : State} (comp : s.comp = r.comp) (ints : s.ints = r.ints) (rq : s.rq q = r.rq q)
    (list : (s.port p).list = (r.port p).list)
    (completed : (s.port p).stats.completed = (r.port p).stats.completed) :
    Suppressed r (s.suppressed p k q) p k q := by
  have port : (s.suppressed p k q).port p = (s.port p).left := (port_modPort ..).trans (if_pos rfl)
  have queue : (s.suppressed p k q).rq q = { s.rq q with openCount := (s.rq q).openCount - 1 } :=
    (modPort_rq ..).trans ((rq_modRq ..).trans (if_pos rfl))
  refine ⟨comp, ints, ?_, by rw [queue, rq], ?_, ?_, ?_⟩
  · exact (slot_setSlot ..).trans (if_pos rfl)
  all_goals rw [port]
  · rw [Port.left, list]
  · rfl
  · rw [Port.left, completed]

/-! ### Draining (R51, R53) -/

/-- The state after the in-service transaction of port `p`, in slot `k`, has gone to DRAINING as `x`. -/
def State.drains (s : State) (p : PortId) (k : SlotId) (x : Txn) : State :=
  issue (.draining p) (.write (drainParts x.req (s.port p).inbound)) false
    (s.setSlot k (.txn { x with state := .draining }))

theorem startDraining_drains (origin : x.origin = .rq q) (read : x.readCount ≠ 0) :
    startDraining p k x (s.setSlot k (.txn x)) = s.drains p k x := by
  unfold startDraining
  rw [origin]
  dsimp only
  rw [if_neg read, modTxn_of_txn (t := x) ((txn_setSlot ..).trans (if_pos rfl)), setSlot_setSlot]
  rfl

theorem startDraining_serviceEnd (read : x.readCount = 0) : startDraining p k x s = serviceEnd p k s := by
  unfold startDraining
  split
  · rw [if_pos read]
  · rfl

theorem drains_of {r : State} {bytes : List (Nat × Byte)} (served : (s.port p).inService = some k)
    (inbound : (s.port p).inbound = bytes) (accesses : s.accesses = r.accesses) (timebase : s.timebase = r.timebase)
    (link : s.link = r.link) (comp : s.comp = r.comp) (rqs : s.rqs = r.rqs) (cqs : s.cqs = r.cqs)
    (list : (s.port p).list = (r.port p).list) (completed : (s.port p).stats.completed = (r.port p).stats.completed)
    (others : ∀ j, j ≠ k → s.txn j = r.txn j) : Drains r (s.drains p k x) p k x bytes := by
  refine ⟨(txn_setSlot ..).trans (if_pos rfl), ?_, served, list, inbound, completed, comp, rqs, cqs, fun j hj => ?_⟩
  · unfold State.drains
    rw [inbound, ← accesses, ← timebase, ← link]
    rfl
  · exact (txn_setSlot ..).trans ((if_neg hj.symm).trans (others j hj))

/-! ### The end of an attempt (R51, R52, R81) -/

/-- What an attempt's end with a result makes of its transaction (R51, R81). -/
def Txn.finished (t : Txn) (E : Engine) (r : Result) (d : Byte) (now : Word) : Txn :=
  { t with
    started := some (t.started.getD now), result := r, detail := d, segIndex := E.segment,
    writeCount := E.writeCount, readCount := E.readCount, endTime := now }

/-- The engine's context is set back (R81). -/
def State.engineReset (s : State) (p : PortId) : State := s.modPort p fun P => { P with eng := Engine.reset }

section

variable (served : (s.port p).inService = some k) (held : s.txn k = some t)
include served held

theorem finishAttempt_result : finishAttempt p (.result r d) now s =
    startDraining p k (t.finished (s.port p).eng r d now)
      ((s.engineReset p).setSlot k (.txn (t.finished (s.port p).eng r d now))) := by
  have still : ((s.engineReset p).port p).inService = some k := by
    rw [State.engineReset, port_modPort, if_pos rfl]
    exact served
  have there : (s.engineReset p).txn k = some t := held
  unfold finishAttempt
  dsimp only
  rw [show (s.modPort p fun P => { P with eng := Engine.reset }) = s.engineReset p from rfl, still]
  dsimp only
  rw [modTxn_of_txn there, modTxn_of_txn (t := { t with started := some (t.started.getD now) })
    ((txn_setSlot ..).trans (if_pos rfl)), setSlot_setSlot]
  have entry : ((s.engineReset p).setSlot k (.txn (t.finished (s.port p).eng r d now))).txn k = some _ :=
    (txn_setSlot ..).trans (if_pos rfl)
  split
  next y found =>
    cases found.symm.trans entry
    rfl
  next missing => cases missing.symm.trans entry

theorem finishAttempt_posts (read : (s.port p).eng.readCount = 0) (keeps : r ≠ .ok ∨ t.req.suppress = false)
    (can : CanPost s p t) : finishAttempt p (.result r d) now s =
      (s.engineReset p).posted p k (t.finished (s.port p).eng r d now) := by
  have port : (s.engineReset p).port p = { s.port p with eng := Engine.reset } := (port_modPort ..).trans (if_pos rfl)
  rw [finishAttempt_result served held, startDraining_serviceEnd (by exact read)]
  exact serviceEnd_posts (by rw [port]; exact served) keeps (can.congr rfl rfl rfl rfl rfl (by rw [port]))

theorem finishAttempt_drains (read : (s.port p).eng.readCount ≠ 0) (origin : t.origin = .rq q) :
    finishAttempt p (.result r d) now s = (s.engineReset p).drains p k (t.finished (s.port p).eng r d now) := by
  rw [finishAttempt_result served held]
  exact startDraining_drains origin read

theorem finishAttempt_suppressed (read : (s.port p).eng.readCount = 0) (suppress : t.req.suppress = true)
    (origin : t.origin = .rq q) (alone : LeavesAlone s p) (kept : (s.rq q).state ≠ .deleting) :
    finishAttempt p (.result .ok d) now s = (s.engineReset p).suppressed p k q := by
  have port : (s.engineReset p).port p = { s.port p with eng := Engine.reset } := (port_modPort ..).trans (if_pos rfl)
  rw [finishAttempt_result served held, startDraining_serviceEnd (by exact read)]
  exact serviceEnd_suppressed rfl suppress origin ⟨alone.1, by rw [port]; exact alone.2⟩ kept

/-- What a retry decision makes of the transaction at the attempt's end (R52). -/
def Txn.retried (t : Txn) (now : Word) : Txn :=
  { t with
    started := some (t.started.getD now), gapFrom := now,
    state := if t.req.retryGap = 0 then .ready else .retryWait }

omit served held in
/-- The state after the attempt's end with a retry decision (R52). -/
def State.retrying (s : State) (p : PortId) (k : SlotId) (t : Txn) (now : Word) : State :=
  (s.modPort p fun P => { P with eng := Engine.reset, inbound := [] }).setSlot k (.txn (t.retried now))

theorem finishAttempt_endRetry (expired : Bool) :
    finishAttempt p (if expired then .retryExpired else .retry) now s =
      if (s.port p).disablePending then fixOutside p k .portOff 0 (s.retrying p k t now)
      else if expired then fixOutside p k .deadline 0 (s.retrying p k t now) else s.retrying p k t now := by
  have still : ((s.engineReset p).port p).inService = some k := by
    rw [State.engineReset, port_modPort, if_pos rfl]
    exact served
  let u := (s.engineReset p).setSlot k (.txn { t with started := some (t.started.getD now) })
  have ends : finishAttempt p (if expired then .retryExpired else .retry) now s = endRetry p k expired now u := by
    unfold finishAttempt
    dsimp only
    rw [show (s.modPort p fun P => { P with eng := Engine.reset }) = s.engineReset p from rfl, still]
    dsimp only
    rw [modTxn_of_txn (t := t) (by exact held)]
    cases expired <;> rfl
  have base : ((u.modPort p fun P => { P with inbound := [] }).modTxn k fun t => { t with
      state := if t.req.retryGap = 0 then .ready else .retryWait, gapFrom := now }) = s.retrying p k t now := by
    rw [modTxn_of_txn (t := { t with started := some (t.started.getD now) })
      ((modPort_txn ..).trans ((txn_setSlot ..).trans (if_pos rfl)))]
    rw [show u.modPort p (fun P => { P with inbound := [] }) =
      ((s.engineReset p).modPort p (fun P => { P with inbound := [] })).setSlot k
        (.txn { t with started := some (t.started.getD now) }) from rfl, setSlot_setSlot]
    unfold State.engineReset State.retrying
    rw [modPort_modPort]
    rfl
  have pending : ((s.retrying p k t now).port p).disablePending = (s.port p).disablePending := by
    rw [State.retrying, show ∀ (v : State) y, (v.setSlot k y).port p = v.port p from fun _ _ => rfl, port_modPort, if_pos rfl]
  rw [ends]
  unfold endRetry
  dsimp only
  rw [base, pending]

theorem finishAttempt_retry (quiet : (s.port p).disablePending = false) :
    finishAttempt p .retry now s = s.retrying p k t now := by
  refine (finishAttempt_endRetry served held false).trans ?_
  rw [quiet]
  rfl

theorem finishAttempt_retryExpired (quiet : (s.port p).disablePending = false) :
    finishAttempt p .retryExpired now s = fixOutside p k .deadline 0 (s.retrying p k t now) := by
  refine (finishAttempt_endRetry served held true).trans ?_
  rw [quiet]
  rfl

end

/-! ### The end of an attempt after the port's moves on the bus -/

/-- What a port does on the bus before its attempt ends leaves alone all but the ports and the command in hand, and of
the port itself what its scheduler keeps. -/
structure OnBus (p : PortId) (s v : State) : Prop where
  eq : v = { s with ports := v.ports, mgmt := v.mgmt }
  list : (v.port p).list = (s.port p).list
  inService : (v.port p).inService = (s.port p).inService
  inbound : (v.port p).inbound = (s.port p).inbound
  pending : (v.port p).disablePending = (s.port p).disablePending
  completed : (v.port p).stats.completed = (s.port p).stats.completed

/-- What the end of an attempt leaves of its port: all but the engine's context and what the scheduler keeps. -/
def Port.Finished (P Q : Port) : Prop :=
  Q = { P with
    eng := Engine.reset, list := Q.list, inService := Q.inService, pendingResult := Q.pendingResult,
    inbound := Q.inbound, stats := { P.stats with completed := Q.stats.completed } }

/-- The end of a transaction's service changes the ports, the slots, the holding list and the accesses in flight, and of
the other transactions none. -/
def ServiceOnly (k : SlotId) (v u : State) : Prop :=
  u = { v with ports := u.ports, slots := u.slots, comp := u.comp, accesses := u.accesses } ∧
    ∀ j, j ≠ k → u.txn j = v.txn j

theorem ServiceOnly.of_ports {u : State} (h : ServiceOnly k v u) (e : v = { s with ports := v.ports }) :
    ServiceOnly k s u := by
  refine ⟨by rw [h.1, e], fun j hj => (h.2 j hj).trans ?_⟩
  rw [e]
  rfl

theorem serviceOnly_posted : ServiceOnly k s (s.posted p k x) :=
  ⟨rfl, fun _ hj => txn_posted.trans (if_neg hj.symm)⟩

theorem serviceOnly_drains : ServiceOnly k s (s.drains p k x) :=
  ⟨rfl, fun _ hj => (txn_setSlot ..).trans (if_neg hj.symm)⟩

theorem port_engineReset : (s.engineReset p).port p = { s.port p with eng := Engine.reset } :=
  (port_modPort ..).trans (if_pos rfl)

section

variable (h : OnBus p s v) (served : (s.port p).inService = some k) (held : s.txn k = some t)
include h

theorem OnBus.txn : v.txn j = s.txn j := by
  rw [h.eq]
  rfl

theorem OnBus.canPost (can : CanPost s p t) : CanPost v p t :=
  can.congr rfl rfl (by rw [h.eq]) (by rw [h.eq]) (by rw [h.eq]) h.pending

include served held

theorem OnBus.posts (read : (v.port p).eng.readCount = 0) (keeps : r ≠ .ok ∨ t.req.suppress = false)
    (can : CanPost s p t) :
    RecordPosted s (finishAttempt p (.result r d) now v) p k
      { t.finished (v.port p).eng r d now with state := .posting } ∧
      (v.port p).Finished ((finishAttempt p (.result r d) now v).port p) ∧
      ServiceOnly k v (finishAttempt p (.result r d) now v) := by
  rw [finishAttempt_posts (h.inService.trans served) (h.txn.trans held) read keeps (h.canPost can)]
  refine ⟨recordPosted_posted can.1 (by rw [h.eq]; rfl) (by rw [h.eq]; rfl) (by rw [h.eq]; rfl)
    (by rw [port_engineReset]; exact h.list) (by rw [port_engineReset]; exact h.completed), ?_,
    serviceOnly_posted (s := v.engineReset p)⟩
  rw [port_posted_self, port_engineReset]
  rfl

theorem OnBus.drains (read : (v.port p).eng.readCount ≠ 0) (origin : t.origin = .rq q) :
    Drains s (finishAttempt p (.result r d) now v) p k
      { t.finished (v.port p).eng r d now with state := .posting } (s.port p).inbound ∧
      (v.port p).Finished ((finishAttempt p (.result r d) now v).port p) ∧
      ServiceOnly k v (finishAttempt p (.result r d) now v) := by
  rw [finishAttempt_drains (h.inService.trans served) (h.txn.trans held) read origin]
  refine ⟨drains_of (by rw [port_engineReset]; exact h.inService.trans served) (by rw [port_engineReset]; exact h.inbound)
    (by rw [h.eq]; rfl) (by rw [h.eq]; rfl) (by rw [h.eq]; rfl) (by rw [h.eq]; rfl) (by rw [h.eq]; rfl)
    (by rw [h.eq]; rfl) (by rw [port_engineReset]; exact h.list) (by rw [port_engineReset]; exact h.completed)
    fun j _ => h.txn, ?_, serviceOnly_drains (s := v.engineReset p)⟩
  have port : ((v.engineReset p).drains p k (t.finished (v.port p).eng r d now)).port p = (v.engineReset p).port p := rfl
  rw [port, port_engineReset]
  rfl

end

/-! ### The byte-boundary stop (R82) -/

theorem takesStop_iff : E.takesStop = true ↔
    E.phase ≠ .none ∧ E.outcome = none ∧ E.stopReq = none ∧ E.quiet = false := by
  simp [Engine.takesStop, and_assoc]

/-- The engine with its stop's result decided (R82). -/
def Engine.stopped (E : Engine) (y : StopResult) : Engine :=
  { E with stopReq := some y, outcome := some (.result y.result 0) }

/-- A stop asked for while a segment is under way: the engine goes on to its byte boundary (R82). -/
theorem requestStop_goes_on {y : StopResult} (takes : (s.port p).eng.takesStop = true)
    (way : (s.port p).eng.phase ∈ [Phase.addressing, .sending, .receiving, .checking, .closing]) :
    requestStop p y s = s.modPort p fun P => { P with eng := P.eng.stopped y } := by
  have phase : ((s.modPort p fun P => { P with eng := P.eng.stopped y }).port p).eng.phase = (s.port p).eng.phase := by
    rw [port_modPort, if_pos rfl]
    rfl
  unfold requestStop
  rw [if_pos takes]
  unfold takeStop
  dsimp only
  rw [show (s.modPort p fun P => { P with eng := { P.eng with
    stopReq := some y, outcome := some (.result y.result 0) } }) = s.modPort p fun P => { P with eng := P.eng.stopped y }
    from rfl, phase]
  simp only [List.mem_cons, List.not_mem_nil, or_false] at way
  rcases way with e | e | e | e | e <;> rw [e]

/-- A stop asked for while a repeated START is to open a segment closes the attempt with a STOP (R82). -/
theorem requestStop_restart {y : StopResult} (takes : (s.port p).eng.takesStop = true)
    (opening : (s.port p).eng.phase = .opening) (restart : (s.port p).eng.restart = true) :
    requestStop p y s = s.modPort p fun P => { P with eng := { P.eng.stopped y with
      phase := .closing, segment := P.eng.segment + 1, restart := false } } := by
  have eng : ((s.modPort p fun P => { P with eng := P.eng.stopped y }).port p).eng = (s.port p).eng.stopped y := by
    rw [port_modPort, if_pos rfl]
  unfold requestStop
  rw [if_pos takes]
  unfold takeStop
  dsimp only
  rw [show (s.modPort p fun P => { P with eng := { P.eng with
    stopReq := some y, outcome := some (.result y.result 0) } }) = s.modPort p fun P => { P with eng := P.eng.stopped y }
    from rfl, eng, show ((s.port p).eng.stopped y).phase = .opening from opening]
  dsimp only
  rw [if_pos (by exact restart), modPort_modPort]
  rfl

theorem StopResult.result_ne_ok (y : StopResult) : y.result ≠ .ok := by cases y <;> nofun

/-- The attempt that a stop ends at once, after the port's moves on the bus. -/
theorem OnBus.stopped {y : StopResult} {n : Nat} (h : OnBus p s v) (served : (s.port p).inService = some k)
    (held : s.txn k = some t) (origin : ∃ q, t.origin = .rq q) (can : (s.port p).eng.readCount ≠ 0 ∨ CanPost s p t)
    (eng : (v.port p).eng = { (s.port p).eng.stopped y with segment := n }) :
    let u := finishAttempt p (.result y.result 0) now v
    let done : Txn := { t with
      state := .posting, started := some (t.started.getD now), result := y.result, detail := 0, segIndex := n,
      writeCount := (s.port p).eng.writeCount, readCount := (s.port p).eng.readCount, endTime := now }
    ((s.port p).eng.readCount = 0 → RecordPosted s u p k done) ∧
      ((s.port p).eng.readCount ≠ 0 → Drains s u p k done (s.port p).inbound) ∧ (v.port p).Finished (u.port p) ∧
        ServiceOnly k v u := by
  have count : (v.port p).eng.readCount = (s.port p).eng.readCount := by rw [eng]; rfl
  have done : ({ t.finished (v.port p).eng y.result 0 now with state := .posting } : Txn) = { t with
      state := .posting, started := some (t.started.getD now), result := y.result, detail := 0, segIndex := n,
      writeCount := (s.port p).eng.writeCount, readCount := (s.port p).eng.readCount, endTime := now } := by
    rw [eng]
    rfl
  obtain ⟨q, origin⟩ := origin
  dsimp only
  rw [← done]
  by_cases read : (s.port p).eng.readCount = 0
  · obtain ⟨posted, finished, only⟩ := h.posts (r := y.result) (d := 0) (now := now) served held (count.trans read)
      (.inl y.result_ne_ok) (can.resolve_left fun some_read => some_read read)
    exact ⟨fun _ => posted, fun some_read => absurd read some_read, finished, only⟩
  · obtain ⟨drained, finished, only⟩ := h.drains (r := y.result) (d := 0) (now := now) served held
      (fun none_read => read (count.symm.trans none_read)) origin
    exact ⟨fun none_read => absurd none_read read, fun _ => drained, finished, only⟩

theorem timeoutsReached_congr (cfg : (v.port p).cfg = (s.port p).cfg) (base : v.timebase = s.timebase)
    (clock : (v.port p).clockLowFrom = (s.port p).clockLowFrom)
    (data : (v.port p).stuckDataFrom = (s.port p).stuckDataFrom) : v.timeoutsReached p = s.timeoutsReached p := by
  unfold State.timeoutsReached State.timeoutPassed State.since
  rw [cfg, base, clock, data]

/-- Where nothing is driven the stop ends the attempt at once (R82). -/
theorem requestStop_at_once {y : StopResult} (takes : (s.port p).eng.takesStop = true)
    (ends : (s.port p).eng.endsAtOnce) (served : (s.port p).inService = some k) (held : s.txn k = some t)
    (origin : ∃ q, t.origin = .rq q) (can : (s.port p).eng.readCount ≠ 0 ∨ CanPost s p t) :
    StoppedAtOnce y s (requestStop p y s) p k t ∧ ServiceOnly k s (requestStop p y s) := by
  have eng : ((s.modPort p fun P => { P with eng := P.eng.stopped y }).port p).eng = (s.port p).eng.stopped y := by
    rw [port_modPort, if_pos rfl]
  have stops : requestStop p y s = takeStop p y s := if_pos takes
  rw [stops]
  unfold takeStop
  dsimp only
  rw [show (s.modPort p fun P => { P with eng := { P.eng with
    stopReq := some y, outcome := some (.result y.result 0) } }) = s.modPort p fun P => { P with eng := P.eng.stopped y }
    from rfl, eng]
  rcases ends with between | ⟨opening, start⟩
  · rw [show ((s.port p).eng.stopped y).phase = .between from between]
    dsimp only
    rw [modPort_modPort]
    generalize hv : (s.modPort p fun P => { P with eng := { P.eng.stopped y with segment := (P.eng.stopped y).segment + 1 } }) = v
    have port : v.port p = { s.port p with
        eng := { (s.port p).eng.stopped y with segment := (s.port p).eng.segment + 1 } } := by
      rw [← hv]
      exact (port_modPort ..).trans (if_pos rfl)
    have on : OnBus p s v := ⟨by rw [← hv]; rfl, by rw [port], by rw [port], by rw [port], by rw [port], by rw [port]⟩
    obtain ⟨posted, drained, finished, only⟩ := on.stopped (now := (s.port p).eng.closedAt) served held origin can (by rw [port])
    have here : ((s.port p).eng.phase == Phase.between) = true := by rw [between]; rfl
    refine ⟨?_, only.of_ports (by rw [← hv]; rfl)⟩
    unfold StoppedAtOnce
    dsimp only
    rw [here]
    refine ⟨congrArg Port.eng finished, (congrArg Port.state finished).trans (by rw [port]; rfl),
      (congrArg Port.tied finished).trans (by rw [port]; rfl), posted, drained⟩
  · rw [show ((s.port p).eng.stopped y).phase = .opening from opening]
    dsimp only
    rw [if_neg (by rw [show ((s.port p).eng.stopped y).restart = false from start]; exact Bool.false_ne_true)]
    generalize hv : backToIdle p (releaseLines p (s.modPort p fun P => { P with eng := P.eng.stopped y })) = v
    have port : v.port p = { s.port p with
        eng := (s.port p).eng.stopped y, sclDriven := false, sdaDriven := false, state := .idle,
        tied := (s.port p).tied ++ s.timeoutsReached p, clockLowFrom := s.timebase, stuckDataFrom := s.timebase } := by
      let w := releaseLines p (s.modPort p fun P => { P with eng := P.eng.stopped y })
      have freed : w.port p = { s.port p with
          eng := (s.port p).eng.stopped y, sclDriven := false, sdaDriven := false } :=
        (port_modPort ..).trans ((if_pos rfl).trans (by rw [port_modPort, if_pos rfl]))
      have reached : w.timeoutsReached p = s.timeoutsReached p :=
        timeoutsReached_congr (by rw [freed]) rfl (by rw [freed]) (by rw [freed])
      rw [← hv, backToIdle, tieTimeouts, modPort_modPort, port_modPort, if_pos rfl, reached, freed]
      rfl
    have on : OnBus p s v := ⟨by rw [← hv]; rfl, by rw [port], by rw [port], by rw [port], by rw [port], by rw [port]⟩
    obtain ⟨posted, drained, finished, only⟩ := on.stopped (now := s.timebase) (n := (s.port p).eng.segment) served held origin can
      (by rw [port]; rfl)
    have elsewhere : ((s.port p).eng.phase == Phase.between) = false := by rw [opening]; rfl
    refine ⟨?_, only.of_ports (by rw [← hv]; rfl)⟩
    unfold StoppedAtOnce
    dsimp only
    rw [elsewhere]
    refine ⟨congrArg Port.eng finished, (congrArg Port.state finished).trans (by rw [port]; rfl),
      (congrArg Port.tied finished).trans (by rw [port]; rfl), posted, drained⟩

end Sys2Proof.Machine
end

section
/-! SUPPORT. The ends of the staging read and the draining write (R49, R50, R53), the retry gap and the deadline (R52,
R57): the statements StagingAndDrainingEnd and GapsAndDeadlinesExpire. -/

namespace Sys2Proof.Machine

variable {s : State} {p : PortId} {k : SlotId} {t : Txn}

theorem setSlot_self (held : s.txn k = some t) : s.setSlot k (.txn t) = s := by
  have here : s.slots.get k = .txn t := slot_of_txn held
  unfold State.setSlot upd
  rw [← here]
  simp [Vector.get]

theorem withService_eq {f : SlotId → Txn → State → State} (served : (s.port p).inService = some k)
    (held : s.txn k = some t) : withService p f s = f k t s := by
  unfold withService
  rw [served]
  dsimp only
  rw [held]

theorem Live.not_stopping (h : Live s) : s.link.ctrl ≠ .stopping := by
  rcases h.2 with e | e <;> rw [e] <;> nofun

theorem deadlinePassed_iff : s.deadlinePassed t = true ↔ t.req.deadline ≠ 0 ∧ t.mark = none ∧
    t.req.deadline.toNat * 1000 ≤ (s.timebase - t.takenAt).toNat := by
  unfold State.deadlinePassed State.since
  rw [Bool.and_eq_true, Bool.and_eq_true, bne_iff_ne, Option.isNone_iff_eq_none, decide_eq_true_iff, and_assoc]

theorem markTxn_eq {r : Result} (held : s.txn k = some t) (unmarked : t.mark = none) :
    markTxn k r s = s.setSlot k (.txn { t with mark := some r }) := by
  unfold markTxn
  rw [modTxn_of_txn held, unmarked]
  rfl

theorem setPendingResult_of_none {r : Result} {d : Byte} (free : (s.port p).pendingResult = none) :
    setPendingResult p r d s = s.modPort p fun P => { P with pendingResult := some (r, d) } :=
  modPort_congr p _ _ (by rw [free]; rfl)

end Sys2Proof.Machine

namespace Sys2Proof.Proofs

open Sys2Proof.Machine

/-- Settles O43: the access's end is told to the scheduler, which finds the transaction in the state it waits in. -/
theorem stagingAndDrainingEnd : Obligations.StagingAndDrainingEnd := by
  intro s p k t a rest data live served held
  have staged {ok : Bool} (fly : InFlight (· == .staging p) 0 s a rest) (ends : EndsAs a ok data.length) :
      exec (.stagingReadEnd p ok data) s = .next (stagingEnd p ok data (s.inFlight rest)) :=
    congrArg Host.Outcome.next (access_heeded live.1 live.not_stopping (fun _ => rfl) fly ends)
  have drained {ok : Bool} (fly : InFlight (· == .draining p) 0 s a rest) (ends : EndsAs a ok 0) :
      exec (.drainingWriteEnd p ok) s = .next (drainingEnd p ok (s.inFlight rest)) :=
    congrArg Host.Outcome.next (access_heeded live.1 live.not_stopping (fun _ => rfl) fly ends)
  refine ⟨fun fly staging => ⟨fun ends free => ?ready, fun ok r d can ends why failed => ?ended⟩,
    fun fly draining ends q origin ok suppress alone kept => ?suppressed, fun fly draining _ can =>
      ⟨fun ends keeps => ?posted, ?failed⟩⟩
  case ready =>
    rw [staged fly ends, stagingEnd, withService_eq (by exact served) (by exact held), if_pos staging]
    rw [show ((s.inFlight rest).port p).pendingResult = none from free]
    dsimp only
    rw [if_pos rfl, modTxn_of_txn (t := t) (by exact held)]
  case ended =>
    have fixes : stagingEnd p ok data (s.inFlight rest) = fixOutside p k r d (s.inFlight rest) := by
      rw [stagingEnd, withService_eq (by exact served) (by exact held), if_pos staging]
      rcases why with pending | ⟨free, rfl, rfl, rfl⟩
      · rw [show ((s.inFlight rest).port p).pendingResult = some (r, d) from pending]
      · rw [show ((s.inFlight rest).port p).pendingResult = none from free]
        rfl
    rw [staged fly ends, fixes]
    exact ⟨_, rfl, recordPosted_fixOutside (s := s.inFlight rest) served held failed can⟩
  case suppressed =>
    have runs : drainingEnd p true (s.inFlight rest) = (s.inFlight rest).suppressed p k q := by
      rw [drainingEnd, withService_eq (by exact served) (by exact held), if_pos draining, if_pos rfl,
        ← serviceEnd_suppressed (s := s.inFlight rest) ok suppress origin alone kept, setSlot_self (s := s.inFlight rest) held]
    rw [drained fly ends, runs]
    exact ⟨_, rfl, suppressed_of rfl rfl rfl rfl rfl⟩
  case posted =>
    have runs : drainingEnd p true (s.inFlight rest) = (s.inFlight rest).posted p k t := by
      rw [drainingEnd, withService_eq (by exact served) (by exact held), if_pos draining, if_pos rfl]
      rw [← serviceEnd_posts (s := s.inFlight rest) served keeps can, setSlot_self (s := s.inFlight rest) held]
    rw [drained fly ends, runs]
    exact ⟨_, rfl, recordPosted_posted (s := s.inFlight rest) (x := t) can.1 rfl rfl rfl rfl rfl⟩
  case failed =>
    let x : Txn := { t with result := .hostFault, detail := 2 }
    have runs : drainingEnd p false (s.inFlight rest) = (s.inFlight rest).posted p k x := by
      rw [drainingEnd, withService_eq (by exact served) (by exact held), if_pos draining, if_neg Bool.false_ne_true,
        modTxn_of_txn (t := t) (by exact held)]
      exact serviceEnd_posts (s := s.inFlight rest) (x := x) served (.inl nofun) can
    rw [drained fly (nofun : EndsAs a false 0), runs]
    exact ⟨_, rfl, recordPosted_posted (s := s.inFlight rest) (x := x) can.1 rfl rfl rfl rfl rfl⟩

/-- Settles O44: the state of the transaction says what an expiry does to it. -/
theorem gapsAndDeadlinesExpire : Obligations.GapsAndDeadlinesExpire := by
  intro s p k t held
  refine ⟨fun live served waits => ?gap, fun run => ⟨fun early => ?early, fun set unmarked late => ?deadline⟩⟩
  case gap =>
    have runs : exec (.retryGapExpiry p) s = .next (gapExpiry p s) := congrArg Host.Outcome.next (whenLive_of_live live)
    rw [runs, gapExpiry, withService_eq served held, waits]
    refine ⟨fun late => ?_, fun early => ?_⟩
    · rw [modTxn_of_txn held]
      exact congrArg _ (if_pos (Bool.and_eq_true_iff.mpr ⟨rfl, decide_eq_true late⟩))
    · exact congrArg _ (if_neg fun both =>
        Nat.not_le.mpr early (of_decide_eq_true (Bool.and_eq_true_iff.mp both).2))
  all_goals
    have runs : exec (.deadlineExpiry k) s = .next (if s.deadlinePassed t then deadlineEffect k t s else s) := by
      refine congrArg Host.Outcome.next ((whenRunning_of_running run).trans ?_)
      rw [deadlineExpiry, held]
    rw [runs]
  case early =>
    refine congrArg _ (if_neg fun passed => ?_)
    obtain ⟨set, unmarked, late⟩ := deadlinePassed_iff.mp passed
    obtain never | marked | soon := early
    · exact set never
    · exact marked unmarked
    · omega
  case deadline =>
    rw [if_pos (deadlinePassed_iff.mpr ⟨set, unmarked, late⟩)]
    have takes (undecided : (s.port t.port).eng.outcome = none) (unasked : (s.port t.port).eng.stopReq = none)
        (loud : (s.port t.port).eng.quiet = false) (phase : (s.port t.port).eng.phase ≠ .none) :
        (s.port t.port).eng.takesStop = true := takesStop_iff.mpr ⟨phase, undecided, unasked, loud⟩
    have asks (active : t.state = .active) (undecided : (s.port t.port).eng.outcome = none) :
        deadlineEffect k t s = requestStop t.port .deadline s := by
      rw [deadlineEffect, active]
      exact if_neg (by rw [undecided]; nofun)
    refine ⟨fun waiting => ?_, fun staging => ?_, fun idle served _ can => ?_, fun active undecided unasked loud way => ?_,
      fun active undecided unasked loud => ⟨fun opening restart => ?_, fun ends served origin can => ?_⟩,
      fun active retry => ?_⟩
    · refine congrArg _ ?_
      rw [← markTxn_eq held unmarked, deadlineEffect]
      rcases waiting with e | e <;> rw [e]
    · refine congrArg _ ?_
      rw [deadlineEffect, staging]
      exact modPort_congr t.port _ _ (by cases (s.port t.port).pendingResult <;> rfl)
    · refine ⟨_, rfl, ?_⟩
      have fixes : deadlineEffect k t s = fixOutside t.port k .deadline 0 s := by
        rw [deadlineEffect]
        rcases idle with e | e <;> rw [e]
      rw [fixes]
      exact recordPosted_fixOutside served held nofun can
    · rw [asks active undecided, requestStop_goes_on (takes undecided unasked loud fun none_yet => by simp [none_yet] at way) way]
      rfl
    · rw [asks active undecided, requestStop_restart (takes undecided unasked loud (by rw [opening]; nofun)) opening restart]
      rfl
    · refine ⟨_, rfl, ?_⟩
      rw [asks active undecided]
      exact (requestStop_at_once (takes undecided unasked loud (by rcases ends with e | ⟨e, -⟩ <;> rw [e] <;> nofun)) ends
        served held origin can).1
    · refine congrArg _ ?_
      rw [deadlineEffect, active]
      exact if_pos retry

end Sys2Proof.Proofs
end

section
/-! SUPPORT. The entry of a port to OFF (R94, R164), and marks set on the transactions in the slots (R55). From them
the statements DisablePort and DeleteRequestQueue. -/

namespace Sys2Proof.Machine

variable {s v : State} {p q : PortId} {k j : SlotId} {t u : Txn} {e : List Byte}

theorem answered_mgmt {ph : CmdPhase} {st : Status} {a b : Word} (h : v.mgmt = (waitsAt e ph s).mgmt)
    (base : v.timebase = s.timebase) : (answered e st a b v).mgmt = (answered e st a b s).mgmt := by
  simp only [answered, h, base]
  rfl

/-! ### The entry to OFF (R94, R164) -/

theorem targetAccepted_mgmt {m : Bool} (h : (s.port p).tgt.transfer.isDeciding = false) :
    (targetAccepted p m s).mgmt = s.mgmt := by
  unfold targetAccepted
  dsimp only
  split
  · rw [decideAgain_of_not (by simpa using h)]
    rfl
  · rfl

theorem offerTargetN_mgmt {n : Nat} (h : (s.port p).tgt.transfer.isDeciding = false) :
    (offerTargetN p n s).mgmt = s.mgmt := by
  induction n generalizing s with
  | zero => rfl
  | succ n ih =>
    unfold offerTargetN
    split
    · rfl
    · split
      next x _ _ _ u o =>
        have same := tryOffer_port o p
        have taken := targetAccepted_filed (m := x.message) (s := u) (p := p) (by rw [same]; exact h)
        rw [same] at taken
        refine (ih (by rw [taken.transfer]; exact h)).trans ?_
        rw [targetAccepted_mgmt (by rw [same]; exact h), tryOffer_of_no_slot rfl o]
      · rfl

theorem giveBack_mgmt {b : RxBuffer} (h : (s.port p).tgt.transfer.isDeciding = false) :
    (giveBack p b s).mgmt = s.mgmt := by
  unfold giveBack pushRecord
  dsimp only
  split
  · exact offerTargetN_mgmt (by simpa using h)
  · rfl

/-- The state of a port's entry to OFF, before DISABLE PORT completes (R94). -/
def offLeft (p : PortId) (s : State) : State :=
  match (s.port p).tgt.atHand.buffer with
  | some b => giveBack p b (s.modPort p Port.switchedOff)
  | none => s.modPort p Port.switchedOff

theorem port_switchedOff : (s.modPort p Port.switchedOff).port p = (s.port p).switchedOff :=
  (port_modPort ..).trans (if_pos rfl)

theorem enterOff_eq : enterOff p s = completeIf (.port p .disable) .success 0 (offLeft p s) := rfl

theorem offLeft_mgmt : (offLeft p s).mgmt = s.mgmt := by
  unfold offLeft
  split
  · exact giveBack_mgmt (by rw [port_switchedOff]; rfl)
  · rfl

theorem offLeft_none (h : (s.port p).tgt.atHand.buffer = none) : offLeft p s = s.modPort p Port.switchedOff := by
  unfold offLeft
  rw [h]

theorem offLeft_some {b : RxBuffer} (h : (s.port p).tgt.atHand = .present b) :
    offLeft p s = giveBack p b (s.modPort p Port.switchedOff) := by
  unfold offLeft
  rw [h]
  rfl

/-- The record of a buffer given back goes to the holding list, or waits in the target unit while that is full. -/
theorem offLeft_room {b : RxBuffer} (h : (s.port p).tgt.atHand = .present b) (records : (s.port p).tgt.records = [])
    (running : (s.cq b.cq).state = .running) (room : s.comp.holding.length < Config.holdingCapacity) :
    offLeft p s = { s.modPort p Port.switchedOff with comp := { s.comp with
      holding := s.comp.holding ++ [⟨unusedRecord p b s.timebase, b.cq, false, none⟩] } } :=
  (offLeft_some h).trans (giveBack_eq (by rw [port_switchedOff]; exact records) running room)

theorem offLeft_full {b : RxBuffer} (h : (s.port p).tgt.atHand = .present b) (records : (s.port p).tgt.records = [])
    (running : (s.cq b.cq).state = .running) (full : Config.holdingCapacity ≤ s.comp.holding.length) :
    offLeft p s = (s.modPort p Port.switchedOff).modTarget p fun T => { T with
      records := [{ receive := ⟨unusedRecord p b s.timebase, b.cq⟩, message := false }] } := by
  refine (offLeft_some h).trans ?_
  unfold giveBack
  rw [pushRecord_of_empty (by rw [port_switchedOff]; exact records)]
  have refused : tryOffer (ReceiveRecord.entry ⟨unusedRecord p b s.timebase, b.cq⟩)
      ((s.modPort p Port.switchedOff).modTarget p fun T => { T with
        records := [{ receive := ⟨unusedRecord p b s.timebase, b.cq⟩, message := false }] }) = none :=
    (if_pos running).trans (if_neg (Nat.not_lt.mpr full))
  dsimp only
  rw [show (s.modPort p Port.switchedOff).timebase = s.timebase from rfl, refused]

/-- The entry to OFF of a port told to disable (R94). -/
theorem switchedOff_enterOff : SwitchedOff s (enterOff p s) p := by
  have port := enterOff_filed p s
  have side : TargetSide p s (enterOff p s) := side_enterOff .same
  refine ⟨by rw [port]; rfl, by rw [port]; rfl, by rw [port]; rfl, by rw [port]; rfl, by rw [port]; rfl,
    by rw [port]; rfl, by rw [port]; rfl, by rw [port]; rfl, by rw [port]; rfl, by rw [port]; rfl, by rw [port]; rfl,
    by rw [port]; rfl, by rw [port]; rfl, by rw [port]; rfl, side.other, fun e held => ?_, fun records _ =>
      ⟨fun none_there => ?_, fun b here running room => ?_⟩⟩
  · have held : (offLeft p s).mgmt.command = some { entry := e, phase := .port p .disable } := by
      rw [offLeft_mgmt]
      exact held
    have base : (offLeft p s).timebase = s.timebase := by
      have same : (enterOff p s).timebase = s.timebase := by rw [side.eq]
      rw [← same, enterOff_eq, completeIf_eq]
    rw [enterOff_eq, completeIf_at held]
    exact ⟨rfl, by rw [answered, base]⟩
  · rw [enterOff_eq, completeIf_eq, offLeft_none none_there]
    rfl
  · rw [enterOff_eq, completeIf_eq, offLeft_room here records running room]

theorem tellDisable_off (run : s.link.ctrl = .running)
    (h : (s.port p).state = .idle ∨ (s.port p).state = .observing ∨ (s.port p).state = .faulted) :
    tellDisable p s = enterOff p s := by
  unfold tellDisable
  rw [if_neg (by rw [run]; nofun)]
  rcases h with e | e | e <;> rw [e]

theorem tellDisable_told (run : s.link.ctrl = .running)
    (h : (s.port p).state = .target ∨ (s.port p).state = .recovering) :
    tellDisable p s = s.modTarget p fun T => { T with disableTold := true } := by
  unfold tellDisable
  rw [if_neg (by rw [run]; nofun)]
  rcases h with e | e <;> rw [e]

/-! ### Marks (R55) -/

/-- A mark set on a transaction that carries none (R55). -/
def Txn.markedBy (t : Txn) (r : Result) : Txn := if t.mark.isNone then { t with mark := some r } else t

theorem markTxn_modTxn {r : Result} : markTxn k r s = s.modTxn k fun t => t.markedBy r := rfl

theorem modTxn_of_same {f : Txn → Txn} (h : ∀ t, s.txn k = some t → f t = t) : s.modTxn k f = s := by
  cases held : s.txn k with
  | none => exact modTxn_of_none held f
  | some t => rw [modTxn_of_txn held, h t held, setSlot_self held]

/-- An operation on one slot after another that changes the transaction there as `g` says. -/
theorem foldl_slots {f : State → SlotId → State} {g : Txn → Txn} {P : Txn → Prop}
    (acts : ∀ s k, (∀ t, s.txn k = some t → P t) → f s k = s.modTxn k g) (l : List SlotId) (nodup : l.Nodup) (s : State)
    (h : ∀ k ∈ l, ∀ t, s.txn k = some t → P t) :
    l.foldl f s = { s with slots := (l.foldl f s).slots } ∧
      (∀ k ∈ l, (l.foldl f s).txn k = (s.txn k).map g) ∧ ∀ k, k ∉ l → (l.foldl f s).txn k = s.txn k := by
  induction l generalizing s with
  | nil => exact ⟨rfl, fun _ hk => absurd hk List.not_mem_nil, fun _ _ => rfl⟩
  | cons a l ih =>
    obtain ⟨fresh, nodup⟩ := List.nodup_cons.mp nodup
    have first := acts s a (h a (List.mem_cons_self ..))
    have txn (k : SlotId) (hk : k ≠ a) : (s.modTxn a g).txn k = s.txn k := by rw [txn_modTxn, if_neg hk.symm]
    have only : s.modTxn a g = { s with slots := (s.modTxn a g).slots } := by
      unfold State.modTxn
      split <;> rfl
    obtain ⟨frame, here, out⟩ := ih nodup (s.modTxn a g) fun k hk t ht =>
      h k (List.mem_cons_of_mem _ hk) t (by rwa [txn k fun same => fresh (same ▸ hk)] at ht)
    rw [List.foldl_cons, first]
    refine ⟨by rw [frame, only], fun k hk => ?_, fun k hk => ?_⟩
    · rcases List.mem_cons.mp hk with rfl | hk
      · rw [out k fresh, txn_modTxn, if_pos rfl]
      · rw [here k hk, txn k fun same => fresh (same ▸ hk)]
    · obtain ⟨ne, hk⟩ := not_or.mp (List.mem_cons.not.mp hk)
      rw [out k hk, txn k ne]

theorem nodup_allSlots : allSlots.Nodup := List.nodup_finRange 64

/-- The HELD and WAITING transactions that name port `p` are marked PORT_OFF (R59). -/
def Txn.offMarked (p : PortId) (t : Txn) : Txn :=
  if t.port = p ∧ (t.state = .held ∨ t.state = .waiting) then t.markedBy .portOff else t

theorem markOff_eq (s : State) (k : SlotId) : markOff p s k = s.modTxn k (Txn.offMarked p) := by
  unfold markOff
  cases held : s.txn k with
  | none => exact (modTxn_of_none held _).symm
  | some t =>
    dsimp only
    rw [modTxn_of_txn held, Txn.offMarked]
    by_cases h : t.port = p ∧ (t.state = .held ∨ t.state = .waiting)
    · rw [if_pos (by simpa using h), if_pos h, markTxn_modTxn, modTxn_of_txn held]
    · rw [if_neg (by simpa using h), if_neg h, setSlot_self held]

theorem offMarked_of_marked (port : t.port = p) (waiting : t.state = .held ∨ t.state = .waiting) (unmarked : t.mark = none) :
    t.offMarked p = { t with mark := some .portOff } := by
  rw [Txn.offMarked, if_pos ⟨port, waiting⟩, Txn.markedBy, unmarked]
  rfl

theorem offMarked_of_not (h : t.state ≠ .held ∧ t.state ≠ .waiting) : t.offMarked p = t :=
  if_neg fun both => both.2.elim h.1 h.2

/-- A result fixed outside an attempt on a port whose disable is pending: the record is posted and the port enters OFF
(R59, R94). -/
theorem fixOutside_switchesOff {r : Result} {d : Byte} (served : (s.port p).inService = some k) (held : s.txn k = some t)
    (failed : r ≠ .ok) (origin : ∃ q, t.origin = .rq q) (running : (s.cq t.cq).state = .running)
    (room : s.comp.holding.length < Config.holdingCapacity) (holds : ∀ q, (s.rq q).hold = none)
    (pending : (s.port p).disablePending = true) (run : s.link.ctrl = .running)
    (idle : (s.port p).state = .idle ∨ (s.port p).state = .observing ∨ (s.port p).state = .faulted) :
    fixOutside p k r d s = enterOff p ((s.cleared p).posted p k (t.fixed r d s.timebase)) := by
  have fixed : ((s.cleared p).setSlot k (.txn (t.fixed r d s.timebase))).txn k = some (t.fixed r d s.timebase) :=
    (txn_setSlot ..).trans (if_pos rfl)
  rw [fixOutside_serviceEnd held, serviceEnd_post (x := t.fixed r d s.timebase) origin (.inl failed) fixed,
    post_leaves (by exact (congrArg Port.inService port_cleared).trans served) fixed running room, setSlot_setSlot,
    leaveList_pending (by exact holds) (by exact (congrArg Port.disablePending port_cleared).trans pending)]
  refine tellDisable_off run ?_
  have left : ((s.cleared p).posted p k (t.fixed r d s.timebase)).port p = ((s.cleared p).port p).left := port_posted_self
  have state : (((s.cleared p).posted p k (t.fixed r d s.timebase)).port p).state = (s.port p).state := by
    rw [left, port_cleared]
    rfl
  rw [← state] at idle
  exact idle

/-! ### DISABLE PORT (R59) -/

/-- The port's disable is pending, its HELD and WAITING transactions are marked, and the command waits (R59). -/
@[irreducible] def State.disabling (s : State) (e : List Byte) (p : PortId) : State :=
  allSlots.foldl (markOff p)
    ((waitsAt e (.port p .disable) s).modPort p fun P => { P with disablePending := true })

theorem disabling_spec (s : State) (e : List Byte) (p : PortId) :
    s.disabling e p = { (waitsAt e (.port p .disable) s).modPort p (fun P => { P with disablePending := true }) with
      slots := (s.disabling e p).slots } ∧
      ∀ k, (s.disabling e p).txn k = (s.txn k).map (Txn.offMarked p) := by
  have marked := foldl_slots (g := Txn.offMarked p) (P := fun _ => True) (fun v k _ => markOff_eq v k) allSlots
    nodup_allSlots ((waitsAt e (.port p .disable) s).modPort p fun P => { P with disablePending := true }) fun _ _ _ _ => trivial
  generalize hv : s.disabling e p = v
  unfold State.disabling at hv
  rw [hv] at marked
  obtain ⟨frame, here, -⟩ := marked
  exact ⟨frame, fun k => here k (mem_allSlots k)⟩

theorem port_disabling : (s.disabling e p).port q =
    if p = q then { s.port p with disablePending := true } else s.port q := by
  rw [(disabling_spec s e p).1]
  exact port_modPort ..

theorem disable_accepted (named : (byteAt e 8).toNat = p.val) (on : (s.port p).state ≠ .off)
    (held : s.mgmt.command = some { entry := e, phase := .execute }) :
    disable e s = if (s.port p).inService.isNone then tellDisable p (s.disabling e p)
      else withService p (fun k t s => disableService p k t s) (s.disabling e p) := by
  have port : ((s.disabling e p).port p).inService = (s.port p).inService :=
    (congrArg Port.inService port_disabling).trans (by rw [if_pos rfl])
  unfold disable
  rw [asId_of_toNat_eq named]
  dsimp only
  rw [if_neg on, setCommandPhase_of_command held]
  unfold State.disabling at port ⊢
  rw [port]

end Sys2Proof.Machine

namespace Sys2Proof.Proofs

open Sys2Proof.Machine

/-- Settles O31: the disable is pending from the command on; the port enters OFF once nothing is in service. -/
theorem disablePort : Obligations.DisablePort := by
  intro s e h
  refine ⟨fun far => ?_, fun p named => ⟨fun off => ?_, fun on => ?_⟩⟩
  · exact h.answers (f := disable) rfl (by simp [disable, asId_of_le far])
  · exact h.answers (f := disable) rfl (by simp [disable, asId_of_toNat_eq named, off])
  obtain ⟨frame, txn⟩ := disabling_spec s e p
  have port : (s.disabling e p).port p = { s.port p with disablePending := true } := port_disabling.trans (if_pos rfl)
  have ports : ∀ r, r ≠ p → (s.disabling e p).port r = s.port r := fun r hr => port_disabling.trans (if_neg hr.symm)
  have accepts := disable_accepted named on h.held
  generalize s.disabling e p = v at *
  have run : v.link.ctrl = .running := by rw [frame]; exact h.1.2
  have mgmt : v.mgmt = (waitsAt e (.port p .disable) s).mgmt := by rw [frame]; rfl
  have comp : v.comp = s.comp := by rw [frame]; rfl
  have base : v.timebase = s.timebase := by rw [frame]; rfl
  have marks (k : SlotId) (u : Txn) (there : s.txn k = some u) (waiting : u.state = .held ∨ u.state = .waiting)
      (unmarked : u.mark = none) (mine : u.port = p) : v.txn k = some { u with mark := some .portOff } := by
    rw [txn, there]
    exact congrArg some (offMarked_of_marked mine waiting unmarked)
  have stays (k : SlotId) (u : Txn) (there : s.txn k = some u) (other : u.state ≠ .held ∧ u.state ≠ .waiting) :
      v.txn k = some u := by
    rw [txn, there]
    exact congrArg some (offMarked_of_not other)
  have runs : exec .disablePort s = .next _ := h.runs (f := disable) rfl accepts
  cases served : (s.port p).inService with
  | none =>
    have told : exec .disablePort s = .next (tellDisable p v) := by
      rw [runs, served]
      rfl
    have side : TargetSide p v (tellDisable p v) := side_tellDisable .same
    refine ⟨_, told, fun _ k u there waiting unmarked mine => ?_,
      fun _ idle => ?_, fun _ busy => ?_,
      fun k _ some_served => (Option.some_ne_none k some_served.symm).elim,
      fun k _ some_served => (Option.some_ne_none k some_served.symm).elim,
      fun k _ some_served => (Option.some_ne_none k some_served.symm).elim⟩
    · rw [side.eq]
      exact marks k u there waiting unmarked mine
    · have waits : v.mgmt.command = some { entry := e, phase := .port p .disable } := by rw [mgmt]; rfl
      have off := enterOff_filed p v
      have hand : ((v.port p).tgt.atHand) = (s.port p).tgt.atHand := by rw [port]
      have records : (v.port p).tgt.records = (s.port p).tgt.records := by rw [port]
      have done : (enterOff p v).mgmt = (answered e .success 0 0 s).mgmt := by
        have held : (offLeft p v).mgmt.command = some { entry := e, phase := .port p .disable } := by
          rw [offLeft_mgmt]
          exact waits
        have now : (offLeft p v).timebase = s.timebase := by
          have same : (enterOff p v).timebase = v.timebase := by rw [(side_enterOff (p := p) (s := v) .same).eq]
          rw [← base, ← same, enterOff_eq, completeIf_eq]
        rw [enterOff_eq, completeIf_at held]
        exact answered_mgmt (ph := .port p .disable) (offLeft_mgmt.trans mgmt) now
      have comp_of (w : Completion) (h : (offLeft p v).comp = w) : (enterOff p v).comp = w := by
        rw [enterOff_eq, completeIf_eq]
        exact h
      have port_of (Q : Port) (h : (offLeft p v).port p = Q) : (enterOff p v).port p = Q := by
        rw [enterOff_eq, completeIf_port]
        exact h
      rw [tellDisable_off run (by rw [port]; exact idle)]
      refine ⟨by rw [off]; rfl, by rw [off]; rfl, by rw [off]; rfl, by rw [off]; rfl, by rw [off]; rfl, by rw [off]; rfl,
        by rw [off, port]; rfl, done, fun r hr => ?_, fun empty => ?_, fun b here none_wait running => ⟨fun room => ?_,
          fun full => ?_⟩⟩
      · exact ((side_enterOff (p := p) (s := v) .same).other r hr).trans (ports r hr)
      · exact comp_of _ ((congrArg State.comp (offLeft_none (by rw [hand]; exact empty))).trans comp)
      all_goals
        have here : (v.port p).tgt.atHand = .present b := hand.trans here
        have none_wait : (v.port p).tgt.records = [] := records.trans none_wait
        have running : (v.cq b.cq).state = .running := by rw [frame]; exact running
      · have left := offLeft_room here none_wait running (by rw [comp]; exact room)
        refine ⟨?_, comp_of _ ?_⟩
        · rw [port_of _ (congrArg (·.port p) left), with_comp_port, port_switchedOff]
          exact none_wait
        · rw [left, comp, base]
      · have left := offLeft_full here none_wait running (by rw [comp]; exact full)
        refine ⟨comp_of _ ((congrArg State.comp left).trans comp), ?_⟩
        rw [port_of _ (congrArg (·.port p) left), port_modTarget, if_pos rfl, base]
    · rw [tellDisable_told run (by rw [port]; exact busy), port_modTarget, if_pos rfl, port]
      exact ⟨rfl, rfl, mgmt⟩
  | some k =>
    have still : (v.port p).inService = some k := by rw [port]; exact served
    have serves : exec .disablePort s = .next (withService p (fun k t s => disableService p k t s) v) := by
      rw [runs, served]
      rfl
    cases there : s.txn k with
    | none =>
      have lost : v.txn k = none := by rw [txn, there]; rfl
      have idle : withService p (fun k t s => disableService p k t s) v = v := by
        unfold withService
        rw [still]
        dsimp only
        rw [lost]
      refine ⟨v, by rw [serves, idle], fun _ => marks, fun none_served => (Option.some_ne_none k none_served).elim,
        fun none_served => (Option.some_ne_none k none_served).elim, ?_, ?_, ?_⟩ <;>
      exact fun j u same held => by
        cases same
        cases there.symm.trans held
    | some u =>
      have acts : exec .disablePort s = .next (disableService p k (u.offMarked p) v) := by
        rw [serves, withService_eq still (by rw [txn, there]; rfl)]
      have state : (u.offMarked p).state = u.state := by
        unfold Txn.offMarked Txn.markedBy
        split
        · split <;> rfl
        · rfl
      have only {R : SlotId → Txn → Prop} (h : R k u) : ∀ j y, some k = some j → s.txn j = some y → R j y :=
        fun j y same held => by
          cases same
          cases there.symm.trans held
          exact h
      have in_service (h : some k = none ∨ ∃ j y, some k = some j ∧ s.txn j = some y ∧
          (y.state = .staging ∨ y.state = .active ∨ y.state = .draining ∨ y.state = .posting)) :
          u.state = .staging ∨ u.state = .active ∨ u.state = .draining ∨ u.state = .posting := by
        obtain none_served | ⟨j, y, same, held, busy⟩ := h
        · exact (Option.some_ne_none k none_served).elim
        · cases same
          cases there.symm.trans held
          exact busy
      have vacant {Q : Prop} (none_served : some k = none) : Q := (Option.some_ne_none k none_served).elim
      rw [acts]
      by_cases staging : u.state = .staging
      · have sets : disableService p k (u.offMarked p) v = setPendingResult p .portOff 0 v := by
          rw [disableService, state, staging]
        refine ⟨_, rfl, fun _ j y held waiting unmarked mine => ?_, vacant, vacant, only fun busy => ?_, only fun _ => ?_,
          only fun idle => ?_⟩
        · rw [sets]
          exact marks j y held waiting unmarked mine
        · rw [staging] at busy
          rcases busy with e | e | e <;> cases e
        · rw [sets]
          refine ⟨?_, mgmt⟩
          rw [setPendingResult, port_modPort, if_pos rfl, port]
          cases (s.port p).pendingResult <;> rfl
        · rw [staging] at idle
          rcases idle with e | e <;> cases e
      by_cases idle_now : u.state = .ready ∨ u.state = .retryWait
      · have fixes : disableService p k (u.offMarked p) v = fixOutside p k .portOff 0 v := by
          rw [disableService, state]
          rcases idle_now with e | e <;> rw [e]
        refine ⟨_, rfl, fun busy => ?_, vacant, vacant, only fun busy => ?_, only fun now => absurd now staging,
          only fun _ can idle empty => ?_⟩
        · have busy := in_service busy
          rcases idle_now with i | i <;> rw [i] at busy <;> rcases busy with e | e | e | e <;> cases e
        · rcases idle_now with i | i <;> rw [i] at busy <;> rcases busy with e | e | e <;> cases e
        · have same : u.offMarked p = u := offMarked_of_not (by rcases idle_now with e | e <;> rw [e] <;> exact ⟨nofun, nofun⟩)
          obtain ⟨origin, running, room, holds, -⟩ := can
          have held : v.txn k = some u := by rw [txn, there]; exact congrArg some same
          rw [fixes, fixOutside_switchesOff (r := .portOff) still held nofun origin (by rw [frame]; exact running)
            (by rw [comp]; exact room)
            (fun q => by rw [frame]; exact holds q) (by rw [port]) run (by rw [port]; exact idle)]
          generalize hz : (v.cleared p).posted p k (u.fixed .portOff 0 v.timebase) = z
          have at_z : z.port p = ({ s.port p with disablePending := true, inbound := [], pendingResult := none } : Port).left := by
            rw [← hz, port_posted_self, port_cleared, port]
          have waits : z.mgmt.command = some { entry := e, phase := .port p .disable } := by
            rw [← hz, posted_mgmt]
            exact (congrArg Mgmt.command mgmt).trans rfl
          have left : enterOff p z = answered e .success 0 0 (z.modPort p Port.switchedOff) := by
            rw [enterOff_eq, offLeft_none (by rw [at_z]; exact empty)]
            exact completeIf_at waits
          have z_port : (enterOff p z).port p = (z.port p).switchedOff := by
            rw [left]
            exact port_switchedOff
          have posted := recordPosted_posted (r := s) (s := v.cleared p) (p := p) (k := k) (x := u.fixed .portOff 0 v.timebase)
            origin comp (by rw [frame]; rfl) (by rw [frame]; rfl) (by rw [port_cleared, port]) (by rw [port_cleared, port])
          rw [hz] at posted
          obtain ⟨c, x, l, i, n, m, rqs, cqs⟩ := posted
          rw [base] at hz x c
          have z_txn (j : SlotId) : (enterOff p z).txn j = z.txn j := by rw [left]; rfl
          refine ⟨⟨by rw [left]; exact c, (z_txn k).trans x, by rw [z_port]; exact l, by rw [z_port]; exact i,
            by rw [z_port]; exact n, by rw [z_port]; exact m, by rw [left]; exact rqs, by rw [left]; exact cqs⟩,
            by rw [z_port]; rfl, by rw [z_port]; rfl, by rw [z_port]; rfl, ?_, fun j y there waiting unmarked mine => ?_⟩
          · rw [left, ← hz]
            exact answered_mgmt (s := s) (ph := .port p .disable) mgmt base
          · have apart : k ≠ j := fun e => by
              subst e
              cases there.symm.trans ‹s.txn k = some u›
              exact idle_now.elim (fun e => by rw [e] at waiting; rcases waiting with w | w <;> cases w)
                fun e => by rw [e] at waiting; rcases waiting with w | w <;> cases w
            rw [z_txn, ← hz, txn_posted, if_neg apart]
            exact marks j y there waiting unmarked mine
      · have rests : disableService p k (u.offMarked p) v = v := by
          rw [disableService, state]
          obtain ⟨one, two⟩ := not_or.mp idle_now
          split
          next now => exact absurd now staging
          next now => exact absurd now one
          next now => exact absurd now two
          · rfl
        refine ⟨v, by rw [rests], fun _ => marks, vacant, vacant, only fun _ => ?_, only fun now => absurd now staging,
          only fun now => absurd now idle_now⟩
        rw [port]
        exact ⟨rfl, rfl, rfl, mgmt⟩

end Sys2Proof.Proofs
end

section
/-! SUPPORT. The deletion of a request queue (R42, R43): the statement DeleteRequestQueue. -/

namespace Sys2Proof.Machine

variable {s v : State} {p : PortId} {q : RqId} {k j : SlotId} {t u : Txn} {e : List Byte}

/-- What the deletion of queue `q` does to its HELD and WAITING transactions (R42). -/
def Txn.flushed (q : RqId) (t : Txn) : Txn :=
  if t.origin = .rq q ∧ (t.state = .held ∨ t.state = .waiting) then t.markedBy .flushed else t

theorem flushSlot_eq (s : State) (k : SlotId)
    (h : ∀ t, s.txn k = some t → t.origin = .rq q → t.state ≠ .retryWait) :
    flushSlot q s k = s.modTxn k (Txn.flushed q) := by
  unfold flushSlot
  cases held : s.txn k with
  | none => exact (modTxn_of_none held _).symm
  | some t =>
    dsimp only
    rw [modTxn_of_txn held, Txn.flushed]
    by_cases mine : t.origin = .rq q
    · have waits := h t held mine
      rw [if_pos (by simp [Txn.ofQueue, mine]), flush]
      by_cases listed : t.state = .held ∨ t.state = .waiting
      · rw [if_pos ⟨mine, listed⟩, ← modTxn_of_txn held (·.markedBy .flushed), ← markTxn_modTxn]
        rcases listed with st | st <;> rw [st]
      · rw [if_neg fun both => listed both.2, setSlot_self held]
        obtain ⟨one, two⟩ := not_or.mp listed
        split
        next st => exact absurd st one
        next st => exact absurd st two
        next st => exact absurd st waits
        · rfl
    · rw [if_neg (by simpa [Txn.ofQueue] using mine), if_neg fun both => mine both.1, setSlot_self held]

theorem flushed_of_marked (mine : t.origin = .rq q) (listed : t.state = .held ∨ t.state = .waiting)
    (unmarked : t.mark = none) : t.flushed q = { t with mark := some .flushed } := by
  rw [Txn.flushed, if_pos ⟨mine, listed⟩, Txn.markedBy, unmarked]
  rfl

theorem flushed_of_not (h : t.origin ≠ .rq q ∨ (t.state ≠ .held ∧ t.state ≠ .waiting) ∨ t.mark ≠ none) :
    t.flushed q = t := by
  unfold Txn.flushed
  split
  next both =>
    obtain ⟨mine, listed⟩ := both
    rcases h with other | ⟨one, two⟩ | marked
    · exact absurd mine other
    · exact absurd listed (not_or.mpr ⟨one, two⟩)
    · exact if_neg fun free => marked (Option.isNone_iff_eq_none.mp free)
  next => rfl

/-- The queue is DELETING, its status word is written, and the command waits (R42). -/
def State.deletes (s : State) (e : List Byte) (q : RqId) : State :=
  ((waitsAt e (.deleteRq q) s).modRq q fun c => { c with state := .deleting, deletePending := true }).issued
    (.rqStatus q) (.write [(s.statusSlot (2 + q.val),
      statusWord (s.rq q).taken 3 (s.rq q).reason.code s.timebase)]) false

theorem rq_deletes (r : RqId) : (s.deletes e q).rq r =
    if q = r then { s.rq q with state := .deleting, deletePending := true } else s.rq r :=
  rq_modRq ..

/-- The accepted deletion, its effect on the transactions still to come. -/
theorem deleteRq_accepted (named : (byteAt e 8).toNat = q.val)
    (here : (s.rq q).state = .running ∨ (s.rq q).state = .error)
    (held : s.mgmt.command = some { entry := e, phase := .execute }) :
    deleteRq e s = deletionEnd q (allSlots.foldl (flushSlot q) (s.deletes e q)) := by
  have word : writeRqStatus q false ((waitsAt e (.deleteRq q) s).modRq q fun c =>
      { c with state := .deleting, deletePending := true }) = s.deletes e q :=
    writeRqStatus_modRq q false _ (waitsAt e (.deleteRq q) s)
  unfold deleteRq
  rw [asId_of_toNat_eq named]
  dsimp only
  rw [if_neg (by rcases here with h | h <;> rw [h] <;> nofun), if_neg (by rcases here with h | h <;> rw [h] <;> nofun),
    setCommandPhase_of_command held, word]

theorem deletionEnd_goes_on (h : (s.rq q).openCount ≠ 0 ∨ s.reading q = true) : deletionEnd q s = s := by
  unfold deletionEnd
  rcases h with e | e <;> rw [if_neg (by simp [e])]

/-- With no entry open and no read in progress the deletion ends at once (R43, log entry 17). -/
theorem deletionEnd_deletes (empty : (s.rq q).openCount = 0) (rests : s.reading q = false) :
    deletionEnd q (s.deletes e q) =
      ((waitsAt e .statusWord (s.modRq q fun _ => RqCtx.reset)).issued (.rqStatus q)
        (.write [(s.statusSlot (2 + q.val), statusWord (s.rq q).taken 3 (s.rq q).reason.code s.timebase)]) false).issued
        (.rqStatus q)
        (.write [(s.statusSlot (2 + q.val), statusWord (s.rq q).taken 0 (s.rq q).reason.code s.timebase)]) true := by
  have ctx : (s.deletes e q).rq q = { s.rq q with state := .deleting, deletePending := true } :=
    (rq_deletes q).trans (if_pos rfl)
  have waits : (((s.deletes e q).rq q).deletePending && (s.deletes e q).commandAt (.deleteRq q)) = true := by
    rw [ctx]
    simp [State.commandAt, State.deletes, State.issued, waitsAt]
  unfold deletionEnd
  rw [if_pos (by rw [ctx, show (s.deletes e q).reading q = s.reading q from rfl, rests]; simp [empty])]
  dsimp only
  rw [waits, if_pos rfl, writeRqStatus_modRq, ctx, setCommandPhase_issued (e := e) (ph := .deleteRq q) rfl]
  unfold State.deletes State.issued waitsAt
  simp only [State.modRq, upd_upd]
  rfl

/-- An operation on one slot after another that changes the transaction there as `g` says, but for one slot, and there
leaves the other transactions. -/
theorem foldl_around {f : State → SlotId → State} {g : Txn → Txn} {P : Txn → Prop}
    (acts : ∀ s k, (∀ t, s.txn k = some t → P t) → f s k = s.modTxn k g) {l : List SlotId} (nodup : l.Nodup)
    (here : k ∈ l) (s : State) (h : ∀ j, j ≠ k → ∀ t, s.txn j = some t → P t)
    (own : ∀ v : State, v = { s with slots := v.slots } → v.txn k = s.txn k → ∀ j, j ≠ k → (f v k).txn j = v.txn j) :
    ∃ v, v = { s with slots := v.slots } ∧ v.txn k = s.txn k ∧
      l.foldl f s = { f v k with slots := (l.foldl f s).slots } ∧ (l.foldl f s).txn k = (f v k).txn k := by
  obtain ⟨pre, post, rfl⟩ := List.append_of_mem here
  obtain ⟨nodup_pre, nodup_post, apart⟩ := List.nodup_append.mp nodup
  obtain ⟨fresh, nodup_post⟩ := List.nodup_cons.mp nodup_post
  have before : k ∉ pre := fun mem => apart k mem k (List.mem_cons_self ..) rfl
  obtain ⟨frame, -, out⟩ := foldl_slots acts pre nodup_pre s fun j hj => h j fun e => before (e ▸ hj)
  have same : (pre.foldl f s).txn k = s.txn k := out k before
  obtain ⟨after, -, kept⟩ := foldl_slots acts post nodup_post (f (pre.foldl f s) k) fun j hj y hy => by
    have ne : j ≠ k := fun e => fresh (e ▸ hj)
    have later : j ∉ pre := fun mem => apart j mem j (List.mem_cons_of_mem _ hj) rfl
    rw [own _ frame same j ne, out j later] at hy
    exact h j ne y hy
  rw [List.foldl_append, List.foldl_cons]
  exact ⟨_, frame, same, after, kept k fresh⟩

end Sys2Proof.Machine

namespace Sys2Proof.Proofs

open Sys2Proof.Machine

/-- Settles O28: the transactions of the queue are reached slot by slot, and the deletion ends where nothing is open. -/
theorem deleteRequestQueue : Obligations.DeleteRequestQueue := by
  intro s e h
  refine ⟨fun far => ?_, fun q named => ⟨fun gone => ?_, fun twice => ?_, fun here => ⟨fun empty rests alone => ?once,
    fun work p k t served held mine named_port waits others can => ?flushed, fun work calm => ?marked⟩⟩⟩
  · exact h.answers (f := deleteRq) rfl (by simp [deleteRq, asId_of_le far])
  · exact h.answers (f := deleteRq) rfl (by simp [deleteRq, asId_of_toNat_eq named, gone])
  · exact h.answers (f := deleteRq) rfl (by simp [deleteRq, asId_of_toNat_eq named, twice])
  all_goals
    have runs : exec .deleteRequestQueue s = .next (deletionEnd q (allSlots.foldl (flushSlot q) (s.deletes e q))) :=
      h.runs (f := deleteRq) rfl (deleteRq_accepted named here h.held)
    rw [runs]
    have ctx : (s.deletes e q).rq q = { s.rq q with state := .deleting, deletePending := true } :=
      (rq_deletes q).trans (if_pos rfl)
  case once =>
    have idle : allSlots.foldl (flushSlot q) (s.deletes e q) = s.deletes e q := foldl_idle allSlots _ fun k _ => by
      have calm : ∀ t, (s.deletes e q).txn k = some t → t.origin ≠ .rq q := alone k
      rw [flushSlot_eq _ k fun t ht mine => absurd mine (calm t ht)]
      exact modTxn_of_same fun t ht => flushed_of_not (.inl (calm t ht))
    rw [idle, deletionEnd_deletes empty rests]
  case flushed =>
    have ends (v : State) (only : v = { s.deletes e q with slots := v.slots }) (same : v.txn k = (s.deletes e q).txn k) :
        flushSlot q v k = (v.cleared p).posted p k (t.fixed .flushed 0 v.timebase) := by
      have there : v.txn k = some t := same.trans held
      have still : (v.port p).inService = some k := by rw [only]; exact served
      have posts : CanPost v p t := by
        obtain ⟨origin, running, room, holds, pending⟩ := can
        refine ⟨origin, by rw [only]; exact running, by rw [only]; exact room, fun x => ?_, by rw [only]; exact pending⟩
        rw [only]
        refine (congrArg RqCtx.hold (rq_deletes x)).trans ?_
        split
        · exact holds q
        · exact holds x
      unfold flushSlot
      rw [there]
      dsimp only
      rw [if_pos (by simp [Txn.ofQueue, mine]), flush, waits, named_port]
      exact fixOutside_posts still there nofun posts
    obtain ⟨v, only, same, around, kept⟩ := foldl_around (k := k) (flushSlot_eq (q := q)) nodup_allSlots (mem_allSlots k)
      (s.deletes e q) (fun j ne u hu mine => others j u ne hu mine) fun v only same j ne => by
        rw [ends v only same]
        exact (serviceOnly_posted (s := v.cleared p)).2 j ne
    rw [ends v only same] at around kept
    generalize allSlots.foldl (flushSlot q) (s.deletes e q) = u at *
    have queue : u.rq q = { s.rq q with state := .deleting, deletePending := true } := by
      rw [around, only]
      exact ctx
    have stays : deletionEnd q u = u := deletionEnd_goes_on (.inl (by rw [queue]; exact work))
    have base : v.timebase = s.timebase := by rw [only]; rfl
    obtain ⟨comp, -, list, service, result, completed, rqs, cqs⟩ := recordPosted_posted (k := k)
      (r := s.modRq q fun c => { c with state := .deleting, deletePending := true }) (s := v.cleared p) (p := p)
      (x := t.fixed .flushed 0 v.timebase) ⟨q, mine⟩ (by rw [only]; rfl) (by rw [only]; rfl) (by rw [only]; rfl)
      (by rw [port_cleared, only]; rfl) (by rw [port_cleared, only]; rfl)
    rw [base] at around kept comp list service result completed rqs cqs
    rw [stays]
    have port : u.port p = ((v.cleared p).posted p k (t.fixed .flushed 0 s.timebase)).port p := by rw [around]; rfl
    refine ⟨u, rfl, ⟨by rw [around]; exact comp, kept.trans (txn_posted.trans (if_pos rfl)), by rw [port]; exact list,
      by rw [port]; exact service, by rw [port]; exact result, by rw [port]; exact completed, by rw [around]; exact rqs,
      by rw [around]; exact cqs⟩, ?_⟩
    rw [around, only]
    rfl
  case marked =>
    obtain ⟨frame, each, -⟩ := foldl_slots (flushSlot_eq (q := q)) allSlots nodup_allSlots (s.deletes e q)
      fun k _ t ht mine => calm k t ht mine
    generalize allSlots.foldl (flushSlot q) (s.deletes e q) = u at *
    have queue : u.rq q = { s.rq q with state := .deleting, deletePending := true } := by rw [frame]; exact ctx
    have stays : deletionEnd q u = u := deletionEnd_goes_on (by
      rw [queue, show u.reading q = s.reading q by rw [frame]; rfl]
      exact work)
    rw [stays]
    refine ⟨u, rfl, queue, by rw [frame]; rfl, by rw [frame]; rfl, fun r hr => ?_, fun k y hy =>
      ⟨fun mine listed unmarked => ?_, fun other => ?_⟩⟩
    · rw [frame]
      exact (rq_deletes r).trans (if_neg hr.symm)
    · rw [each k (mem_allSlots k), show (s.deletes e q).txn k = some y from hy, Option.map_some,
        flushed_of_marked mine listed unmarked]
    · rw [each k (mem_allSlots k), show (s.deletes e q).txn k = some y from hy, Option.map_some, flushed_of_not other]

end Sys2Proof.Proofs
end
section
/-! SUPPORT. What the target unit makes of the bytes of a transfer (R149 to R156) and of an address byte (R146, R147,
R155). From them the statements TargetBytesPass and AddressesAreJudged. -/

namespace Sys2Proof.Machine

variable {s : State} {p : PortId} {o : OwnId} {b : Byte}

/-! ### The bytes of a transfer -/

/-- A byte for which the port's transfer is not the one awaited changes nothing. -/
theorem imageWritten_of_other (h : ∀ i f, (s.port p).tgt.transfer ≠ .imageWrite i f) : imageWritten p b s = s := by
  unfold imageWritten
  split
  next e => exact absurd e (h _ _)
  next e => exact absurd e (h _ _)
  next => rfl

theorem imageSent_of_other {ack : Bool} (h : ∀ i, (s.port p).tgt.transfer ≠ .imageRead i false) :
    imageSent p ack s = s := by
  unfold imageSent
  split
  next e => exact absurd e (h _)
  next => rfl

theorem replySent_of_other {ack : Bool} (h : ∀ i n, (s.port p).tgt.transfer ≠ .replyRead i n false) :
    replySent p ack s = s := by
  unfold replySent
  split
  next e => exact absurd e (h _ _)
  next => rfl

theorem mailboxWritten_of_other (h : (s.port p).tgt.transfer ≠ .mailboxWrite) : mailboxWritten p b s = s := by
  unfold mailboxWritten
  split
  next e _ => exact absurd e h
  next => rfl

/-- Beyond the last reply byte FFh is sent (R153). -/
theorem reply_getD (l : List Byte) (n : Nat) :
    l.getD n 0xFF = if n < l.length then byteAt l n else 0xFF := by
  split
  next h => simp [byteAt, List.getD_eq_getElem?_getD, h]
  next h => simp [List.getD_eq_getElem?_getD, List.getElem?_eq_none (Nat.le_of_not_lt h)]

/-! ### The address byte -/

/-- The port when a complete address byte has been taken, before it is judged (R89). -/
def State.addressTaken (s : State) (p : PortId) : State :=
  s.modPort p fun P =>
    { P with
      awaitAddr := false, idleFrom := s.timebase, clockLowFrom := s.timebase, stuckDataFrom := s.timebase }

theorem addressSeen_of_taken (obs : (s.port p).state = .observing) (await : (s.port p).awaitAddr = true) :
    addressSeen p b s = if s.judges p then judge p b (s.addressTaken p) else s.addressTaken p := by
  have same : touch p (s.modPort p fun P => { P with awaitAddr := false }) = s.addressTaken p := by
    simp only [touch, modPort_modPort, State.addressTaken]
    rfl
  unfold addressSeen
  rw [if_pos (by simp [obs, await])]
  dsimp only
  rw [same]
  have port : (s.addressTaken p).judges p = s.judges p := by simp [State.judges, State.addressTaken]
  rw [port]

theorem addressSeen_of_other (h : (s.port p).state ≠ .observing ∨ (s.port p).awaitAddr = false) :
    addressSeen p b s = s := by
  unfold addressSeen
  rw [if_neg]
  rcases h with h | h <;> simp [h]

theorem judges_iff (run : Running s) : s.judges p = true ↔
    (s.port p).cfg.targetEnable = true ∧ (s.port p).inStep = true ∧ (s.port p).tgt.disableTold = false := by
  simp [State.judges, run.2, and_assoc]

theorem slot_not_matched_iff {c : OwnSlot} {a : BitVec 7} :
    (c.on && c.addr == a) = false ↔ c.role = .off ∨ c.addr ≠ a := by
  simp only [OwnSlot.on, Bool.and_eq_false_iff, bne_eq_false_iff_eq, beq_eq_false_iff_ne, ne_eq]

/-- The first slot in use with the byte's address is the one matched (R146). -/
theorem matchAddress_own {c : Settings} (on : (c.slots.get o).role ≠ .off)
    (addr : (c.slots.get o).addr = b.extractLsb' 1 7)
    (first : ∀ i : OwnId, i < o → (c.slots.get i).role = .off ∨ (c.slots.get i).addr ≠ b.extractLsb' 1 7) :
    matchAddress c b = some (.own o) := by
  have found : (List.finRange 3).find? (fun i => (c.slots.get i).on && (c.slots.get i).addr == b.extractLsb' 1 7) =
      some o := by
    rw [List.find?_eq_some_iff_getElem]
    refine ⟨by simpa [OwnSlot.on, addr] using on, o.val, by simp, by simp, fun j lt => ?_⟩
    rw [slot_not_matched_iff.mpr (first _ (by simpa [Fin.lt_def] using lt))]
    rfl
  unfold matchAddress
  dsimp only
  rw [found]

/-- Address 0 written, in no slot, is the general call's when that is on (R146). -/
theorem matchAddress_generalCall {c : Settings} (on : c.generalCall = true)
    (no : ∀ i : OwnId, (c.slots.get i).role = .off ∨ (c.slots.get i).addr ≠ 0) :
    matchAddress c 0 = some .generalCall := by
  have zero : (0 : Byte).extractLsb' 1 7 = 0 := by decide
  have none : (List.finRange 3).find? (fun i => (c.slots.get i).on && (c.slots.get i).addr == 0) = none :=
    List.find?_eq_none.mpr fun i _ => by
      rw [slot_not_matched_iff.mpr (no i)]
      decide
  unfold matchAddress
  dsimp only
  rw [zero, none]
  simp [on, bitAt]

theorem addressTaken_cfg : ((s.addressTaken p).port p).cfg = (s.port p).cfg := by simp [State.addressTaken]
theorem addressTaken_tgt : ((s.addressTaken p).port p).tgt = (s.port p).tgt := by simp [State.addressTaken]

theorem messageComing_addressTaken : MessageComing (s.addressTaken p) p ↔ MessageComing s p := by
  unfold MessageComing
  dsimp only
  rw [addressTaken_tgt]
  rfl

/-- A byte that has matched is judged on the port that has taken it. -/
theorem exec_addressByte_of_match {who : Addressed} (run : Running s) (obs : (s.port p).state = .observing)
    (await : (s.port p).awaitAddr = true) (judges : s.judges p = true)
    (is : matchAddress (s.port p).cfg b = some who) :
    exec (.addressByte p b) s = .next (decideMatch p who b (s.addressTaken p)) := by
  refine congrArg _ ((whenRunning_of_running run).trans ?_)
  rw [addressSeen_of_taken obs await, if_pos judges, judge, addressTaken_cfg, is]

/-- A matched write to a mailbox, or the general call, is the message decision (R155). -/
theorem decideMatch_message {who : Addressed} {a : BitVec 7}
    (h : (∃ o : OwnId, who = .own o ∧ a = b.extractLsb' 1 7 ∧
        ((s.port p).cfg.slots.get o).role = .mailbox ∧ b.getLsbD 0 = false) ∨ who = .generalCall ∧ a = 0) :
    decideMatch p who b s = decideMessage p who a s.timebase s := by
  rcases h with ⟨o, rfl, rfl, role, write⟩ | ⟨rfl, rfl⟩
  · simp only [decideMatch, role, bitAt, write]
  · rfl

end Sys2Proof.Machine

namespace Sys2Proof.Proofs
open Sys2Proof.Machine

/-- Settles O55: each role's byte is one or two settings of its own port. -/
theorem targetBytesPass : Obligations.TargetBytesPass := by
  unfold Obligations.TargetBytesPass
  intro s p o b ack run
  dsimp only
  have write : exec (.imageWriteByte p b) s = .next (imageWritten p b s) :=
    congrArg _ (whenRunning_of_running run)
  have read : exec (.imageReadByte p ack) s = .next (imageSent p ack s) :=
    congrArg _ (whenRunning_of_running run)
  have reply : exec (.replyReadByte p ack) s = .next (replySent p ack s) :=
    congrArg _ (whenRunning_of_running run)
  have mailbox : exec (.mailboxWriteByte p b) s = .next (mailboxWritten p b s) :=
    congrArg _ (whenRunning_of_running run)
  rw [write, read, reply, mailbox]
  refine ⟨fun h => ?_, fun h => ?_, fun h => ?_, fun pos h => ?_, fun m h fill => ⟨fun room => ?_, fun full => ?_⟩,
    fun h => congrArg _ (imageWritten_of_other h), fun h => congrArg _ (imageSent_of_other h),
    fun h => congrArg _ (replySent_of_other h), fun h => congrArg _ (mailboxWritten_of_other h)⟩
  · simp only [imageWritten, h, giveAck, touch, modTarget_eq, modPort_modPort, byteN]
    rfl
  · simp only [imageWritten, h, giveAck, touch, modPort_modPort]
  · simp only [imageSent, h, sendTarget, touch, modTarget_eq, modPort_modPort]
    exact congrArg _ (modPort_congr _ _ _ rfl)
  · simp only [replySent, h, sendTarget, touch, modTarget_eq, modPort_modPort, reply_getD]
    rfl
  · simp only [mailboxWritten, h, fill, giveAck, touch, modTarget_eq, modPort_modPort, room, decide_true, if_true]
    rfl
  · simp only [mailboxWritten, h, fill, giveAck, touch, modTarget_eq, modPort_modPort, Nat.not_lt.mpr full,
      decide_false, Bool.false_eq_true, if_false]
    rfl

/-- Settles O54: the byte is taken, and judged by the first slot that matches (`exec_addressByte_of_match`); a
message's address by the decision lemmas of R155. -/
theorem addressesAreJudged : Obligations.AddressesAreJudged := by
  unfold Obligations.AddressesAreJudged
  intro s p b run
  dsimp only
  have row : exec (.addressByte p b) s = .next (addressSeen p b s) := congrArg _ (whenRunning_of_running run)
  refine ⟨fun h => row.trans (congrArg _ (addressSeen_of_other h)), fun obs await => ⟨fun h => ?_,
    fun enabled inStep told => ?_⟩⟩
  · rw [row, addressSeen_of_taken obs await]
    refine congrArg _ (?_ : _ = s.addressTaken p)
    split
    next judges =>
      obtain ⟨enabled, inStep, told⟩ := (judges_iff run).mp judges
      have none : matchAddress (s.port p).cfg b = none := by simpa [enabled, inStep, told] using h
      rw [judge, addressTaken_cfg, none]
    next => rfl
  have judges : s.judges p = true := (judges_iff run).mpr ⟨enabled, inStep, told⟩
  refine ⟨fun o on addr first => ?_, fun who addr which => ?_⟩
  · rw [exec_addressByte_of_match run obs await judges (matchAddress_own on addr first)]
    simp only [decideMatch, addressTaken_cfg]
    refine ⟨fun role write => ?_, fun role read => ?_, fun role read => ⟨fun loaded => ?_, fun not => ?_⟩⟩
    · simp only [role, bitAt, write, takePart, touch, State.addressTaken, modPort_modPort]
      rfl
    · simp only [role, bitAt, read, takePart, touch, State.addressTaken, modStats_eq, modPort_modPort]
      rfl
    · simp only [role, bitAt, read, decideReply, addressTaken_tgt, loaded, if_true]
      simp only [takePart, touch, State.addressTaken, modTarget_eq, modPort_modPort]
      rfl
    · simp only [role, bitAt, read, decideReply, addressTaken_tgt, not, if_false]
      simp only [refuse, touch, State.addressTaken, modPort_modPort]
      rfl
  · have is : matchAddress (s.port p).cfg b = some who := by
      rcases which with ⟨o, rfl, -, role, addr, -, first⟩ | ⟨rfl, -, rfl, on, no⟩
      · exact matchAddress_own (by simp [role]) addr first
      · exact matchAddress_generalCall on no
    rw [exec_addressByte_of_match run obs await judges is, decideMatch_message (a := addr) (by
      rw [addressTaken_cfg]
      rcases which with ⟨o, h, a, role, -, write, -⟩ | ⟨h, a, -⟩
      · exact .inl ⟨o, h, a, role, write⟩
      · exact .inr ⟨h, a⟩)]
    refine ⟨fun x hand free => ?_, fun coming missing => ?_, fun x gone hand => ?_, fun gone none => ?_⟩
    · rw [decideMessage_starts (by rw [addressTaken_tgt]; exact hand) (by rw [addressTaken_tgt]; exact free)]
      simp only [startMessage, touch, State.addressTaken, modPort_modPort]
      rfl
    · rw [decideMessage_waits (messageComing_addressTaken.mpr coming) (by rw [addressTaken_tgt]; exact missing)]
      simp only [State.addressTaken, modPort_modPort]
      rfl
    · rw [decideMessage_refuses (mt messageComing_addressTaken.mp gone),
        refuseMessage_of_buffer (by rw [addressTaken_tgt]; exact hand)]
      simp only [refuse, touch, State.addressTaken, modStats_eq, modPort_modPort]
      rfl
    · rw [decideMessage_refuses (mt messageComing_addressTaken.mp gone),
        refuseMessage_of_none (by rw [addressTaken_tgt]; exact none)]
      refine ⟨_, rfl, ?_, setLatch_mem _ _⟩
      rw [setLatch_ports]
      simp only [refuse, touch, State.addressTaken, modStats_eq, modPort_modPort]
      rfl

end Sys2Proof.Proofs
end

section
/-! SUPPORT. What happens before a port told to disable enters OFF (`BeforeOff`), and the end of a target transfer
(R149 to R158). From them the statement TransfersEnd. -/

namespace Sys2Proof.Machine

variable {r s t u v : State} {p q : PortId} {e : List Byte} {o : OwnId}

/-! ### The way to OFF (R94) -/

/-- Between `s` and `t` nothing has moved that the entry of port `p` to OFF is said of: the other ports, the port's
settings and list, a DISABLE PORT that waits for it, and, outside a message, the buffer at hand and the records. -/
structure BeforeOff (p : PortId) (s t : State) : Prop where
  other : ∀ q, q ≠ p → t.port q = s.port q
  cfg : (t.port p).cfg = (s.port p).cfg
  list : (t.port p).list = (s.port p).list
  time : t.timebase = s.timebase
  cqs : t.cqs = s.cqs
  waits : ∀ e, s.mgmt.command = some { entry := e, phase := .port p .disable } →
    t.mgmt.command = some { entry := e, phase := .port p .disable }
  hand : (s.port p).tgt.transfer ≠ .mailboxWrite → t.comp = s.comp ∧
    (t.port p).tgt.records = (s.port p).tgt.records ∧ (t.port p).tgt.atHand = (s.port p).tgt.atHand ∧
    (t.port p).tgt.transfer ≠ .mailboxWrite

theorem BeforeOff.same : BeforeOff p s s where
  other _ _ := rfl
  cfg := rfl
  list := rfl
  time := rfl
  cqs := rfl
  waits _ := id
  hand h := ⟨rfl, rfl, rfl, h⟩

theorem BeforeOff.trans (h : BeforeOff p r s) (g : BeforeOff p s t) : BeforeOff p r t where
  other q hq := (g.other q hq).trans (h.other q hq)
  cfg := g.cfg.trans h.cfg
  list := g.list.trans h.list
  time := g.time.trans h.time
  cqs := g.cqs.trans h.cqs
  waits e he := g.waits e (h.waits e he)
  hand hm := by
    obtain ⟨comp, records, hand, left⟩ := h.hand hm
    obtain ⟨comp', records', hand', left'⟩ := g.hand left
    exact ⟨comp'.trans comp, records'.trans records, hand'.trans hand, left'⟩

/-- A port told to disable has been switched off, whatever the way there. -/
theorem SwitchedOff.before (h : SwitchedOff t u p) (way : BeforeOff p s t) : SwitchedOff s u p := by
  obtain ⟨off, scl, sda, free, inStep, eng, recovery, tied, pending, transfer, hand, told, cfg, list, other, waits,
    back⟩ := h
  refine ⟨off, scl, sda, free, inStep, eng, recovery, tied, pending, transfer, hand, told, cfg.trans way.cfg,
    list.trans way.list, fun q hq => (other q hq).trans (way.other q hq), fun e he => ?_, fun records writes => ?_⟩
  · rw [← way.time]
    exact waits e (way.waits e he)
  · obtain ⟨comp, records', hand', left⟩ := way.hand writes
    have cq (n : CqId) : t.cq n = s.cq n := by rw [State.cq, way.cqs, State.cq]
    have there := back (records'.trans records) left
    rw [hand', comp, way.time] at there
    exact ⟨there.1, fun b hb running room => there.2 b hb (by rw [cq]; exact running) room⟩

theorem beforeOff_modPort {f : Port → Port} (cfg : (f (s.port p)).cfg = (s.port p).cfg)
    (list : (f (s.port p)).list = (s.port p).list) (records : (f (s.port p)).tgt.records = (s.port p).tgt.records)
    (hand : (f (s.port p)).tgt.atHand = (s.port p).tgt.atHand)
    (left : (f (s.port p)).tgt.transfer = (s.port p).tgt.transfer ∨ (f (s.port p)).tgt.transfer = .none) :
    BeforeOff p s (s.modPort p f) where
  other q hq := by rw [port_modPort, if_neg hq.symm]
  cfg := by rwa [port_modPort, if_pos rfl]
  list := by rwa [port_modPort, if_pos rfl]
  time := rfl
  cqs := rfl
  waits _ := id
  hand h := by
    rw [port_modPort, if_pos rfl]
    exact ⟨rfl, records, hand, by rcases left with e | e <;> rw [e] <;> [exact h; nofun]⟩

theorem beforeOff_touch : BeforeOff p s (touch p s) := beforeOff_modPort rfl rfl rfl rfl (.inl rfl)

/-- A change of the management unit alone that leaves a DISABLE PORT waiting. -/
theorem beforeOff_mgmt (h : t = { s with mgmt := t.mgmt })
    (waits : ∀ e, s.mgmt.command = some { entry := e, phase := .port p .disable } →
      t.mgmt.command = some { entry := e, phase := .port p .disable }) : BeforeOff p s t := by
  have port (q : PortId) : t.port q = s.port q := by rw [h]; rfl
  exact {
    other := fun q _ => port q
    cfg := by rw [port]
    list := by rw [port]
    time := by rw [h]
    cqs := by rw [h]
    waits := waits
    hand := fun hm => ⟨by rw [h], by rw [port], by rw [port], by rwa [port]⟩ }

theorem beforeOff_completeIf {ph : CmdPhase} {x : Status} {a : Word} (h : ph ≠ .port p .disable) :
    BeforeOff p s (completeIf ph x a s) :=
  beforeOff_mgmt (completeIf_eq ..) fun e he => by
    rw [completeIf_left (by simpa [State.commandAt, he] using h.symm), he]

theorem beforeOff_setLatch {l : Latch} {x : Byte} : BeforeOff p s (setLatch l x s) :=
  beforeOff_mgmt (setLatch_eq ..) fun e he => by rw [setLatch_keeps, he]

theorem beforeOff_applyHeld : BeforeOff p s (applyHeld p s) := by
  unfold applyHeld
  split
  · refine (BeforeOff.trans ?_ (beforeOff_modPort rfl rfl rfl rfl (.inl rfl))).trans (beforeOff_completeIf nofun)
    exact beforeOff_modPort rfl rfl rfl rfl (.inl rfl)
  · refine (BeforeOff.trans ?_ (beforeOff_modPort rfl rfl rfl rfl (.inl rfl))).trans (beforeOff_completeIf nofun)
    exact beforeOff_modPort rfl rfl rfl rfl (.inl rfl)
  · exact .same

theorem beforeOff_endReply {n : Nat} : BeforeOff p s (endReply p o n s) := by
  unfold endReply
  split
  · refine (BeforeOff.trans ?_ (beforeOff_modPort rfl rfl rfl rfl (.inl rfl))).trans beforeOff_setLatch
    exact beforeOff_modPort rfl rfl rfl rfl (.inl rfl)
  · exact beforeOff_modPort rfl rfl rfl rfl (.inl rfl)

theorem beforeOff_leftTransfer : BeforeOff p s (s.modPort p Port.leftTransfer) :=
  beforeOff_modPort rfl rfl rfl rfl (.inr rfl)

/-- Filing a message's record leaves the management unit, since no decision waits. -/
theorem pushRecord_mgmt {x : TargetRecord} (h : (s.port p).tgt.transfer.isDeciding = false) :
    (pushRecord p x s).mgmt = s.mgmt := by
  unfold pushRecord
  dsimp only
  split
  · exact offerTargetN_mgmt (by simpa using h)
  · rfl

theorem endMessage_mgmt {a b : Bool} (h : (s.port p).tgt.transfer.isDeciding = false) :
    (endMessage p a b s).mgmt = s.mgmt := by
  unfold endMessage
  split
  · dsimp only
    split
    next m _ _ =>
      unfold drainEnded
      split
      next m' _ =>
        have not : ((((s.modTarget p fun T => { T with
            staging := .draining { m with endTime := s.timebase, endedByRestart := a, abandoned := b } }).modTarget p
              fun T => { T with staging := .posting }).port p).tgt.transfer).isDeciding = false := by simpa using h
        dsimp only
        rw [decideAgain_of_not (by rw [(pushRecord_filed not).transfer]; exact not), pushRecord_mgmt not]
        rfl
      · rfl
    · rfl
  · rfl

theorem beforeOff_endTransfer {a b : Bool} : BeforeOff p s (endTransfer p a b s) := by
  rw [endTransfer_eq]
  split
  · exact beforeOff_leftTransfer.trans beforeOff_applyHeld
  · exact (beforeOff_leftTransfer.trans beforeOff_endReply).trans beforeOff_applyHeld
  next writes =>
    have left : (s.modPort p Port.leftTransfer).port p = (s.port p).leftTransfer :=
      (port_modPort ..).trans (if_pos rfl)
    have not : ((s.modPort p Port.leftTransfer).port p).tgt.transfer.isDeciding = false := by rw [left]; rfl
    have side : TargetSide p s (endMessage p a b (s.modPort p Port.leftTransfer)) :=
      side_endMessage (side_modPort .same)
    have filed := endMessage_filed (a := a) (b := b) not
    rw [left] at filed
    exact {
      other := side.other
      cfg := by rw [filed]; rfl
      list := by rw [filed]; rfl
      time := by rw [side.eq]
      cqs := by rw [side.eq]
      waits := fun e he => by rw [endMessage_mgmt not]; exact he
      hand := fun no => absurd writes no }
  · exact beforeOff_leftTransfer

/-- The staging of a target unit is not moved by a buffer given back (R164). -/
theorem giveBack_staging {b : RxBuffer} : ((giveBack p b s).port p).tgt.staging = (s.port p).tgt.staging := by
  unfold giveBack pushRecord
  dsimp only
  split
  next empty =>
    have records : ((s.modTarget p fun T => { T with records := T.records ++
        [{ receive := { record := unusedRecord p b s.timebase, cq := b.cq }, message := false }] }).port p).tgt.records =
        [{ receive := { record := unusedRecord p b s.timebase, cq := b.cq }, message := false }] := by
      simp [List.isEmpty_iff.mp empty]
    unfold offerTarget
    rw [records, List.length_singleton, offerTargetN, records]
    dsimp only
    split
    next w taken =>
      simp only [offerTargetN, targetAccepted, Bool.false_eq_true, if_false, modTarget_eq, port_modPort, if_true,
        tryOffer_port taken]
    next => simp
  next => simp

theorem enterOff_staging : ((enterOff p s).port p).tgt.staging = (s.port p).tgt.staging := by
  rw [enterOff_eq, completeIf_port]
  unfold offLeft
  split
  · rw [giveBack_staging, port_switchedOff]
    rfl
  · rw [port_switchedOff]
    rfl

/-! ### The end of a transfer on a port told to disable (R94) -/

theorem endTransfer_told {a b : Bool} : ((endTransfer p a b s).port p).tgt.disableTold = (s.port p).tgt.disableTold := by
  rw [endTransfer_ended p a b s]

theorem touch_tgt : ((touch p s).port p).tgt = (s.port p).tgt := by
  rw [touch, port_modPort, if_pos rfl]

theorem readConflict_switchedOff (told : (s.port p).tgt.disableTold = true) (sends : (s.port p).tgt.transfer.sends = true) :
    SwitchedOff s (readConflict p s) p := by
  unfold readConflict
  rw [if_pos sends]
  dsimp only
  rw [if_pos (by rw [endTransfer_told, touch_tgt, port_modPort, if_pos rfl]; exact told)]
  refine switchedOff_enterOff.before (BeforeOff.trans (BeforeOff.trans ?_ beforeOff_touch) beforeOff_endTransfer)
  exact beforeOff_modPort rfl rfl rfl rfl (.inl rfl)

/-- The transfer ended by a STOP or a START, the port told to disable enters OFF from there. -/
theorem transferEnd_told {ending : TransferEnding} (told : (s.port p).tgt.disableTold = true)
    (busy : (s.port p).tgt.transfer ≠ .none) : ∃ v, transferEnd p ending s = enterOff p v ∧ BeforeOff p s v ∧
      (v.port p).tgt.staging = ((endTransfer p (byRestart ending) false (touch p s)).port p).tgt.staging := by
  have way : BeforeOff p s (endTransfer p (byRestart ending) false (touch p s)) :=
    beforeOff_touch.trans beforeOff_endTransfer
  have told' : ((endTransfer p (byRestart ending) false (touch p s)).port p).tgt.disableTold = true := by
    rw [endTransfer_told, touch_tgt]
    exact told
  unfold transferEnd
  rw [if_neg busy]
  generalize endTransfer p (byRestart ending) false (touch p s) = t at way told' ⊢
  cases ending
  case stop =>
    simp only [byRestart, Bool.false_eq_true, if_false]
    unfold enterIdle
    dsimp only
    rw [if_pos (by rw [completeIf_port, port_modPort, if_pos rfl]; exact told')]
    refine ⟨_, rfl, (way.trans ?_).trans (beforeOff_completeIf nofun), ?_⟩
    · exact beforeOff_modPort rfl rfl rfl rfl (.inl rfl)
    · rw [completeIf_port, port_modPort, if_pos rfl]
  case restart =>
    simp only [byRestart, if_true]
    unfold observeStart
    dsimp only
    rw [if_pos (by rw [port_modPort, if_pos rfl, setVerdict, port_modPort, if_pos rfl]; exact told')]
    refine ⟨_, rfl, (way.trans (t := setVerdict p false t) ?_).trans ?_, ?_⟩
    · exact beforeOff_modPort rfl rfl rfl rfl (.inl rfl)
    · exact beforeOff_modPort rfl rfl rfl rfl (.inr rfl)
    · rw [port_modPort, if_pos rfl, setVerdict, port_modPort, if_pos rfl]

/-- A message with bytes goes on to its drain as the transfer ends (R157). -/
theorem endTransfer_drains {a b : Bool} {m : Message} (writes : (s.port p).tgt.transfer = .mailboxWrite)
    (fill : (s.port p).tgt.staging = .filling m) (some : m.bytes ≠ []) :
    endTransfer p a b s = issue (.targetDrain p) (.write [(m.buffer.addr, m.bytes)]) false
      (s.modPort p fun P => { P with
        sclDriven := false, sdaDriven := false,
        tgt := { P.tgt with
          transfer := .none,
          staging := .draining { m with endTime := s.timebase, endedByRestart := a, abandoned := b } } }) := by
  have left : (s.modPort p Port.leftTransfer).port p = (s.port p).leftTransfer := (port_modPort ..).trans (if_pos rfl)
  rw [endTransfer_eq, writes]
  dsimp only
  rw [endMessage_filling (m := m) (by rw [left]; exact fill) some, modTarget_eq, modPort_modPort]
  rfl

/-! ### The end of a transfer on a port that goes on -/

/-- The port that has left its transfer, with the lines' activity taken (R149). -/
def Port.released (x : Word) (P : Port) : Port :=
  { P with
    sclDriven := false, sdaDriven := false, idleFrom := x, clockLowFrom := x, stuckDataFrom := x,
    tgt := { P.tgt with transfer := .none } }

/-- The state in which the port has left its transfer, before its role's end effects. -/
def State.transferLeft (s : State) (p : PortId) : State := s.modPort p (Port.released s.timebase)

theorem port_transferLeft : (s.transferLeft p).port p = (s.port p).released s.timebase :=
  (port_modPort ..).trans (if_pos rfl)

theorem transferLeft_eq : (touch p s).modPort p Port.leftTransfer = s.transferLeft p := by
  rw [touch, modPort_modPort]
  rfl

theorem endTransfer_plain {a b : Bool} (h : (s.port p).tgt.transfer = .refused ∨
    (∃ f, (s.port p).tgt.transfer = .imageWrite o f) ∨
    ((∃ d, (s.port p).tgt.transfer = .imageRead o d) ∧ (s.port p).tgt.held = none)) :
    endTransfer p a b (touch p s) = s.transferLeft p := by
  rw [endTransfer_eq, touch_tgt, transferLeft_eq]
  rcases h with h | ⟨f, h⟩ | ⟨⟨d, h⟩, none⟩
  · rw [h]
  · rw [h]
  · rw [h]
    dsimp only
    unfold applyHeld
    rw [port_transferLeft, Port.released, none]

/-- Bytes held for an image replace their part of it as the read ends (R152). -/
def Port.imageReplaced (i : OwnId) (offset : Nat) (bytes : List Byte) (x : Word) (P : Port) : Port :=
  { P.released x with
    tgt := { P.tgt with
      transfer := .none, held := none, images := upd P.tgt.images i fun x => overlay x offset bytes } }

theorem endTransfer_imageRead {a b d : Bool} {i : OwnId} {offset : Nat} {bytes : List Byte}
    (h : (s.port p).tgt.transfer = .imageRead o d) (held : (s.port p).tgt.held = some (.image i offset bytes))
    (waits : s.mgmt.command = some { entry := e, phase := .update p }) :
    endTransfer p a b (touch p s) =
      answered e .success 0 0 (s.modPort p (Port.imageReplaced i offset bytes s.timebase)) := by
  rw [endTransfer_eq, touch_tgt, transferLeft_eq, h]
  dsimp only
  unfold applyHeld
  rw [port_transferLeft, Port.released, held]
  dsimp only
  unfold applyImage
  rw [completeIf_at (s := (s.transferLeft p |>.modTarget p _).modTarget p _) waits]
  simp only [State.transferLeft, modTarget_eq, modPort_modPort]
  rfl

/-- The port after a reply read that did not reach the reply's end, and after one that did (R153). -/
def Port.replyKept (o : OwnId) (x : Word) (P : Port) : Port :=
  { P.released x with
    tgt := { P.tgt with
      transfer := .none, replies := upd P.tgt.replies o fun r => { r with state := .loaded } } }
def Port.replyGone (o : OwnId) (x : Word) (P : Port) : Port :=
  { P.released x with
    stats := { P.stats with repliesTaken := P.stats.repliesTaken + 1 },
    tgt := { P.tgt with
      transfer := .none, replies := upd P.tgt.replies o fun _ => { state := .empty, bytes := [] } } }

theorem endReply_short {n : Nat} (h : n < ((s.port p).tgt.replies.get o).bytes.length) :
    endReply p o n (s.transferLeft p) = s.modPort p (Port.replyKept o s.timebase) := by
  unfold endReply
  rw [port_transferLeft, Port.released, if_neg (Nat.not_le.mpr h)]
  simp only [State.transferLeft, modTarget_eq, modPort_modPort]
  rfl

theorem endReply_full {n : Nat} (h : ((s.port p).tgt.replies.get o).bytes.length ≤ n) :
    endReply p o n (s.transferLeft p) = setLatch (.replyTaken p o) 0 (s.modPort p (Port.replyGone o s.timebase)) := by
  unfold endReply
  rw [port_transferLeft, Port.released, if_pos h]
  simp only [State.transferLeft, modTarget_eq, modStats_eq, modPort_modPort]
  rfl

theorem applyHeld_none (h : (s.port p).tgt.held = none) : applyHeld p s = s := by
  unfold applyHeld
  rw [h]

theorem applyHeld_reply {bytes : List Byte} (held : (s.port p).tgt.held = some (.reply o bytes))
    (waits : s.mgmt.command = some { entry := e, phase := .update p }) :
    applyHeld p s = answered e .success 0 0 (s.modPort p fun P => { P with
      tgt := { P.tgt with
        held := none, replies := upd P.tgt.replies o fun _ => { state := .loaded, bytes := bytes } } }) := by
  unfold applyHeld
  rw [held]
  dsimp only
  unfold applyReply
  rw [completeIf_at (s := (s.modTarget p _).modTarget p _) waits]
  simp only [modTarget_eq, modPort_modPort]

theorem endTransfer_replyRead {a b d : Bool} {n : Nat} (h : (s.port p).tgt.transfer = .replyRead o n d) :
    endTransfer p a b (touch p s) = applyHeld p (endReply p o n (s.transferLeft p)) := by
  rw [endTransfer_eq, touch_tgt, transferLeft_eq, h]

/-- The end of a reply read by whether its end was reached and a reply is held for the slot (R153, R154). -/
theorem endTransfer_replyKept {a b d : Bool} {n : Nat} (h : (s.port p).tgt.transfer = .replyRead o n d)
    (none : (s.port p).tgt.held = none) (short : n < ((s.port p).tgt.replies.get o).bytes.length) :
    endTransfer p a b (touch p s) = s.modPort p (Port.replyKept o s.timebase) := by
  rw [endTransfer_replyRead h, endReply_short short, applyHeld_none (by rw [port_modPort, if_pos rfl]; exact none)]

theorem endTransfer_replyGone {a b d : Bool} {n : Nat} (h : (s.port p).tgt.transfer = .replyRead o n d)
    (none : (s.port p).tgt.held = none) (full : ((s.port p).tgt.replies.get o).bytes.length ≤ n) :
    endTransfer p a b (touch p s) = setLatch (.replyTaken p o) 0 (s.modPort p (Port.replyGone o s.timebase)) := by
  rw [endTransfer_replyRead h, endReply_full full,
    applyHeld_none (by rw [setLatch_port, port_modPort, if_pos rfl]; exact none)]

/-- The port after a reply read at whose end a reply held for the slot has replaced the one read (R154); `count` is
what the end made of the statistics. -/
def Port.replyReplaced (o : OwnId) (bytes : List Byte) (x : Word) (count : Stats → Stats) (P : Port) : Port :=
  { P.released x with
    stats := count P.stats,
    tgt := { P.tgt with
      transfer := .none, held := none,
      replies := upd P.tgt.replies o fun _ => { state := .loaded, bytes := bytes } } }

theorem endTransfer_replyKept_held {a b d : Bool} {n : Nat} {bytes : List Byte}
    (h : (s.port p).tgt.transfer = .replyRead o n d) (held : (s.port p).tgt.held = some (.reply o bytes))
    (waits : s.mgmt.command = some { entry := e, phase := .update p })
    (short : n < ((s.port p).tgt.replies.get o).bytes.length) :
    endTransfer p a b (touch p s) = answered e .success 0 0
      (s.modPort p (Port.replyReplaced o bytes s.timebase id)) := by
  rw [endTransfer_replyRead h, endReply_short short,
    applyHeld_reply (s := s.modPort p (Port.replyKept o s.timebase)) (o := o) (bytes := bytes)
      (by rw [port_modPort, if_pos rfl]; exact held) waits, modPort_modPort]
  refine congrArg _ (modPort_congr _ _ _ ?_)
  simp only [Port.replyKept, Port.replyReplaced, upd_upd]
  rfl

theorem modPort_setLatch {l : Latch} {x : Byte} {f : Port → Port} :
    (setLatch l x s).modPort p f = setLatch l x (s.modPort p f) := by
  unfold setLatch
  rw [modPort_mgmt]
  split <;> rfl

theorem endTransfer_replyGone_held {a b d : Bool} {n : Nat} {bytes : List Byte}
    (h : (s.port p).tgt.transfer = .replyRead o n d) (held : (s.port p).tgt.held = some (.reply o bytes))
    (waits : s.mgmt.command = some { entry := e, phase := .update p })
    (full : ((s.port p).tgt.replies.get o).bytes.length ≤ n) :
    endTransfer p a b (touch p s) = answered e .success 0 0 (setLatch (.replyTaken p o) 0
      (s.modPort p (Port.replyReplaced o bytes s.timebase fun c => { c with repliesTaken := c.repliesTaken + 1 }))) := by
  rw [endTransfer_replyRead h, endReply_full full,
    applyHeld_reply (s := setLatch _ 0 (s.modPort p (Port.replyGone o s.timebase))) (e := e) (o := o) (bytes := bytes)
      (by rw [setLatch_port, port_modPort, if_pos rfl]; exact held) (by rw [setLatch_keeps]; exact waits),
    modPort_setLatch, modPort_modPort]
  refine congrArg (fun t => answered e .success 0 0 (setLatch _ 0 t)) (modPort_congr _ _ _ ?_)
  simp only [Port.replyGone, Port.replyReplaced, upd_upd]

/-- The port whose message goes on to its drain (R157). -/
def Port.messageEnded (again : Bool) (m : Message) (x : Word) (P : Port) : Port :=
  { P.released x with
    tgt := { P.tgt with
      transfer := .none,
      staging := .draining { m with endTime := x, endedByRestart := again, abandoned := false } } }

theorem endTransfer_messageEnded {a : Bool} {m : Message} (writes : (s.port p).tgt.transfer = .mailboxWrite)
    (fill : (s.port p).tgt.staging = .filling m) (some : m.bytes ≠ []) :
    endTransfer p a false (touch p s) = (s.modPort p (Port.messageEnded a m s.timebase)).issued
      (.targetDrain p) (.write [(m.buffer.addr, m.bytes)]) false := by
  rw [endTransfer_drains (by rw [touch_tgt]; exact writes) (by rw [touch_tgt]; exact fill) some]
  simp only [touch, modPort_modPort]
  rfl

theorem issued_modPort {kind : AccessKind} {x : Xfer} {c : Bool} {f : Port → Port} :
    (s.issued kind x c).modPort p f = (s.modPort p f).issued kind x c := rfl

/-- Where the port goes from a transfer, by what ended it (R149). -/
def Port.movesOn (ending : TransferEnding) (x : Word) (P : Port) : Port :=
  match ending with
  | .stop =>
    { P with
      state := .idle, inStep := true, busFree := true, awaitAddr := false, reason := none,
      enabling := false, clockLowFrom := x, stuckDataFrom := x }
  | .restart =>
    { P with state := .observing, busFree := false, awaitAddr := true, tgt := { P.tgt with transfer := .none } }

theorem transferEnd_moves {ending : TransferEnding} (busy : (s.port p).tgt.transfer ≠ .none)
    (told : (s.port p).tgt.disableTold = false) (ended : endTransfer p (byRestart ending) false (touch p s) = t)
    (waits : t.commandAt (.port p .enable) = false) (time : t.timebase = s.timebase) :
    transferEnd p ending s = t.modPort p (Port.movesOn ending s.timebase) := by
  rw [← time]
  have told' : (t.port p).tgt.disableTold = false := by
    rw [← ended, endTransfer_told, touch_tgt]
    exact told
  unfold transferEnd
  rw [if_neg busy]
  dsimp only
  rw [ended]
  cases ending
  case stop =>
    simp only [byRestart, Bool.false_eq_true, if_false]
    exact enterIdle_eq told' waits
  case restart =>
    simp only [byRestart, if_true]
    unfold observeStart
    dsimp only
    rw [if_neg (by rw [port_modPort, if_pos rfl, setVerdict, port_modPort, if_pos rfl]; simpa using told'), setVerdict,
      modPort_modPort]
    rfl

theorem answered_modPort {x : Status} {a b : Word} {f : Port → Port} :
    (answered e x a b s).modPort p f = answered e x a b (s.modPort p f) := rfl

/-- The transfer is over at once where bytes are sent, the port OBSERVING (R149). -/
theorem readConflict_of (sends : (s.port p).tgt.transfer.sends = true) (told : (s.port p).tgt.disableTold = false) :
    readConflict p s = endTransfer p false false (touch p (s.modPort p fun P => { P with state := .observing })) := by
  unfold readConflict
  rw [if_pos sends]
  dsimp only
  rw [if_neg (by rw [endTransfer_told, touch_tgt, port_modPort, if_pos rfl]; simpa using told)]

/-! ### The end of a message's drain (R158) -/

/-- A decision taken again at once is the decision (R155). -/
theorem decideAgain_idem (p : PortId) (s : State) : decideAgain p (decideAgain p s) = decideAgain p s := by
  cases waiting : (s.port p).tgt.transfer
  case deciding who a since =>
    rw [decideAgain_of_deciding waiting]
    have settled : ∀ t : State, (t.port p).tgt.transfer.isDeciding = false → decideAgain p t = t :=
      fun t => decideAgain_of_not
    by_cases starts : (s.port p).tgt.staging = .free ∧ ∃ b, (s.port p).tgt.atHand = .present b
    · obtain ⟨free, b, hand⟩ := starts
      rw [decideMessage_starts hand free]
      exact settled _ (by simp [startMessage, touch, Transfer.isDeciding])
    · have missing : (s.port p).tgt.staging = .free → ∀ b, (s.port p).tgt.atHand ≠ .present b :=
        fun free b hand => starts ⟨free, b, hand⟩
      by_cases coming : MessageComing s p
      · rw [decideMessage_waits coming missing, decideAgain_of_deciding (by rw [port_modPort, if_pos rfl]),
          decideMessage_waits (by unfold MessageComing at *; rw [port_modPort, if_pos rfl]; exact coming)
            (by rw [port_modPort, if_pos rfl]; exact missing), modPort_modPort]
      · rw [decideMessage_refuses coming]
        refine settled _ ?_
        unfold refuseMessage
        split <;> simp [refuse, touch, Transfer.isDeciding]
  all_goals
    rw [decideAgain_of_not (s := s) (by rw [waiting]; rfl), decideAgain_of_not (s := s) (by rw [waiting]; rfl)]

/-- The message's record joins a list with room, staging is FREE and the message is counted (R158). -/
theorem drainEnded_room {m : Message} {ok : Bool} (staging : (s.port p).tgt.staging = .draining m)
    (records : (s.port p).tgt.records = []) (running : (s.cq m.buffer.cq).state = .running)
    (room : s.comp.holding.length < Config.holdingCapacity) :
    drainEnded p ok s = decideAgain p
      ({ s with comp := { s.comp with
          holding := s.comp.holding ++ [(⟨messageRecord p m ok, m.buffer.cq, false, none⟩ : HoldEntry)] } }.modPort p fun P =>
        { P with
          stats := { P.stats with messages := P.stats.messages + 1 },
          tgt := { P.tgt with staging := .free } }) := by
  have posting : ((s.modTarget p fun T => { T with staging := .posting }).port p).tgt.records = [] := by
    rw [port_modTarget, if_pos rfl]
    exact records
  have offered : ∀ u : State, u.cqs = s.cqs → u.comp = s.comp →
      tryOffer (⟨messageRecord p m ok, m.buffer.cq, false, none⟩ : HoldEntry) u = some { u with comp := { s.comp with
        holding := s.comp.holding ++ [(⟨messageRecord p m ok, m.buffer.cq, false, none⟩ : HoldEntry)] } } := by
    intro u cqs comp
    have running' : (u.cq m.buffer.cq).state = .running := by
      rw [State.cq, cqs]
      exact running
    rw [← comp]
    exact (if_pos running').trans (if_pos (by rw [comp]; exact room))
  unfold drainEnded
  rw [staging]
  dsimp only
  rw [pushRecord_of_empty posting]
  dsimp only [ReceiveRecord.entry]
  rw [offered]
  rotate_left
  · rfl
  · rfl
  dsimp only [targetAccepted]
  rw [if_pos rfl, decideAgain_idem]
  refine congrArg (decideAgain p) ?_
  simp only [modTarget_eq, modStats_eq]
  have out : ∀ (u : State) (f : Port → Port), ({ u.modPort p f with comp := { s.comp with
      holding := s.comp.holding ++ [(⟨messageRecord p m ok, m.buffer.cq, false, none⟩ : HoldEntry)] } } : State) =
      { u with comp := { s.comp with
        holding := s.comp.holding ++ [(⟨messageRecord p m ok, m.buffer.cq, false, none⟩ : HoldEntry)] } }.modPort p f :=
    fun _ _ => rfl
  rw [out, out]
  simp only [modPort_modPort]
  refine modPort_congr _ _ _ ?_
  rw [with_comp_port]
  simp [← records]

/-- A full list leaves the record with the target unit, staging POSTING (R158). -/
theorem drainEnded_full {m : Message} {ok : Bool} (staging : (s.port p).tgt.staging = .draining m)
    (records : (s.port p).tgt.records = []) (running : (s.cq m.buffer.cq).state = .running)
    (full : Config.holdingCapacity ≤ s.comp.holding.length) :
    drainEnded p ok s = decideAgain p (s.modTarget p fun T => { T with
      staging := .posting,
      records := [{ receive := ⟨messageRecord p m ok, m.buffer.cq⟩, message := true }] }) := by
  have posting : ((s.modTarget p fun T => { T with staging := .posting }).port p).tgt.records = [] := by
    rw [port_modTarget, if_pos rfl]
    exact records
  have refused : ∀ u : State, u.cqs = s.cqs → u.comp = s.comp →
      tryOffer (⟨messageRecord p m ok, m.buffer.cq, false, none⟩ : HoldEntry) u = none := by
    intro u cqs comp
    have running' : (u.cq m.buffer.cq).state = .running := by
      rw [State.cq, cqs]
      exact running
    exact (if_pos running').trans (if_neg (by rw [comp]; exact Nat.not_lt.mpr full))
  unfold drainEnded
  rw [staging]
  dsimp only
  rw [pushRecord_of_empty posting]
  dsimp only [ReceiveRecord.entry]
  rw [refused]
  rotate_left
  · rfl
  · rfl
  simp only [modTarget_eq, modPort_modPort]

end Sys2Proof.Machine

namespace Sys2Proof.Proofs
open Sys2Proof.Machine

/-- Settles O56: the way to OFF of a port told to disable (`transferEnd_told`, `readConflict_switchedOff`); on a port
that goes on, the role's end effect and then the move (`transferEnd_moves`). -/
theorem transfersEnd : Obligations.TransfersEnd := by
  unfold Obligations.TransfersEnd
  intro s p o out
  dsimp only
  refine ⟨fun told run => ⟨fun ending busy => ?_, fun sends => ?_⟩, fun told => ⟨fun run => ?_, ?_⟩⟩
  · obtain ⟨v, same, way, staging⟩ := transferEnd_told (ending := ending) told busy
    refine ⟨enterOff p v, congrArg _ ((whenRunning_of_running run).trans same), switchedOff_enterOff.before way,
      fun m writes fill some => ?_⟩
    rw [enterOff_staging, staging, endTransfer_drains (by rw [touch_tgt]; exact writes)
      (by rw [touch_tgt]; exact fill) some, issue_port, port_modPort, if_pos rfl]
    cases ending <;> rfl
  · exact ⟨_, congrArg Host.Outcome.next (whenRunning_of_running run), readConflict_switchedOff told sends⟩
  · have conflict : exec (.targetReadConflict p) s = .next (readConflict p s) :=
      congrArg _ (whenRunning_of_running run)
    have row (ending : TransferEnding) : exec (.targetTransferEnd p ending) s = .next (transferEnd p ending s) :=
      congrArg _ (whenRunning_of_running run)
    rw [conflict]
    refine ⟨fun quiet => ?_, fun reads => ⟨fun none => ?_, fun offset bytes e held waits => ?_⟩, fun i idle => ?_,
      fun enable => ⟨fun h => ?_, fun pos d reads none => ⟨fun short => ?_, fun full => ?_⟩,
        fun ending f mem e waits => ⟨fun d i offset bytes reads held => ?_, fun pos d bytes reads held => ?_⟩,
        fun m writes fill some => ?_⟩, fun who addr since waits => ?_⟩
    · rw [readConflict, if_neg (by rw [quiet]; nofun)]
    · have tgt : ((s.modPort p fun P => { P with state := .observing }).port p).tgt = (s.port p).tgt := by
        rw [port_modPort, if_pos rfl]
      rw [readConflict_of (by rw [reads]; rfl) told, endTransfer_plain (o := o)
        (.inr (.inr ⟨⟨false, by rw [tgt]; exact reads⟩, by rw [tgt]; exact none⟩))]
      simp only [State.transferLeft, modPort_modPort]
      rfl
    · have tgt : ((s.modPort p fun P => { P with state := .observing }).port p).tgt = (s.port p).tgt := by
        rw [port_modPort, if_pos rfl]
      have ended := endTransfer_imageRead (a := false) (b := false)
        (s := s.modPort p fun P => { P with state := .observing }) (by rw [tgt]; exact reads)
        (by rw [tgt]; exact held) waits
      rw [readConflict_of (by rw [reads]; rfl) told, ended]
      exact congrArg (fun t => Host.Outcome.next (answered e .success 0 0 t)) (modPort_modPort ..)
    · rw [row, transferEnd, if_pos idle]
    · have busy : (s.port p).tgt.transfer ≠ .none := by
        rcases h with h | ⟨f, h⟩ | ⟨⟨d, h⟩, -⟩ <;> rw [h] <;> nofun
      rw [row, row, transferEnd_moves busy told (endTransfer_plain h) enable rfl,
        transferEnd_moves busy told (endTransfer_plain h) enable rfl]
      simp only [State.transferLeft, modPort_modPort]
      exact ⟨rfl, rfl⟩
    · rw [row, transferEnd_moves (by rw [reads]; nofun) told (endTransfer_replyKept reads none short) enable rfl,
        modPort_modPort]
      rfl
    · rw [row, transferEnd_moves (by rw [reads]; nofun) told (endTransfer_replyGone reads none full)
        (by rw [State.commandAt, setLatch_keeps]; exact enable) (setLatch_timebase ..)]
      refine ⟨_, rfl, ?_, setLatch_mem _ _⟩
      rw [modPort_setLatch, setLatch_ports, modPort_modPort]
      rfl
    · rw [row, transferEnd_moves (by rw [reads]; nofun) told (endTransfer_imageRead reads held waits) rfl rfl,
        answered_modPort, modPort_modPort]
      simp only [List.mem_cons, Prod.mk.injEq, List.not_mem_nil, or_false] at mem
      obtain ⟨rfl, rfl⟩ | ⟨rfl, rfl⟩ := mem <;> rfl
    · refine ⟨fun short => ?_, fun full => ?_⟩
      · rw [row, transferEnd_moves (by rw [reads]; nofun) told (endTransfer_replyKept_held reads held waits short) rfl rfl,
          answered_modPort, modPort_modPort]
        simp only [List.mem_cons, Prod.mk.injEq, List.not_mem_nil, or_false] at mem
        obtain ⟨rfl, rfl⟩ | ⟨rfl, rfl⟩ := mem <;> rfl
      · rw [row, transferEnd_moves (by rw [reads]; nofun) told (endTransfer_replyGone_held reads held waits full) rfl
          (setLatch_timebase ..)]
        rw [answered_modPort, modPort_setLatch, modPort_modPort]
        refine ⟨_, rfl, ?_, setLatch_mem _ _, rfl, ?_⟩
        · refine (setLatch_ports ..).trans ?_
          simp only [List.mem_cons, Prod.mk.injEq, List.not_mem_nil, or_false] at mem
          obtain ⟨rfl, rfl⟩ | ⟨rfl, rfl⟩ := mem <;> rfl
        · simp only [answered, setLatch_timebase, modPort_timebase]
    · rw [row, row, transferEnd_moves (by rw [writes]; nofun) told (endTransfer_messageEnded writes fill some) enable rfl,
        transferEnd_moves (by rw [writes]; nofun) told (endTransfer_messageEnded writes fill some) enable rfl,
        issued_modPort, issued_modPort, modPort_modPort, modPort_modPort]
      exact ⟨rfl, rfl⟩
    · have row : exec (.stretchLimitExpiry p) s = .next (stretchExpiry p s) :=
        congrArg _ (whenRunning_of_running run)
      rw [row, stretchExpiry, waits]
      refine ⟨fun early => congrArg _ (if_neg (Nat.not_le.mpr early)), fun late => ?_⟩
      dsimp only
      have passed : (s.port p).cfg.stretch.toNat * 10 ≤ s.since since := late
      rw [if_pos passed]
      refine ⟨fun x hand => ?_, fun coming => ⟨_, rfl, ?_⟩⟩
      · rw [refuseMessage_of_buffer hand]
        simp only [refuse, touch, modStats_eq, modPort_modPort]
        rfl
      · rw [refuseMessage_of_none (by rcases coming with e | e <;> rw [e] <;> nofun)]
        refine ⟨(setLatch_ports ..).trans ?_, setLatch_mem _ _⟩
        simp only [refuse, touch, modStats_eq, modPort_modPort]
        rfl
  · intro m a rest ok on fly ends staging records running
    have row : exec (.targetDrainEnd p ok) s = .next (drainEnded p ok (s.inFlight rest)) :=
      congrArg Host.Outcome.next (access_heeded out on (fun _ => rfl) fly ends)
    have again (v : State) (mgmt : v.mgmt = s.mgmt) (other : ∀ r, r ≠ p → v.port r = s.port r)
        (is : drainEnded p ok (s.inFlight rest) = decideAgain p v) :
        ∃ u, exec (.targetDrainEnd p ok) s = .next u ∧
          u = { v with ports := u.ports, mgmt := { s.mgmt with latches := u.mgmt.latches } } ∧
          DecidesAgain v u p ∧ ∀ r, r ≠ p → u.port r = s.port r := by
      refine ⟨decideAgain p v, row.trans (congrArg _ is), ?_, decidesAgain p v, fun r hr => ?_⟩
      · rw [← mgmt]
        exact (latchFrame_decideAgain v p).eq
      · exact ((side_decideAgain TargetSide.same).other r hr).trans (other r hr)
    refine ⟨fun room => again _ rfl (fun r hr => ?_) (drainEnded_room staging records running room),
      fun full => again _ rfl (fun r hr => ?_) (drainEnded_full staging records running full)⟩
    · rw [port_modPort, if_neg hr.symm]
      rfl
    · rw [port_modTarget, if_neg hr.symm]
      rfl

end Sys2Proof.Proofs
end

section
/-! SUPPORT. How a recovery or a restart ends (R97 to R101): what the port settles to and which command completes
(`Settled`), on a port told to disable too. From them the statement RecoveryRuns. -/

namespace Sys2Proof.Machine

variable {s t u v : State} {p q : PortId} {e : List Byte}

/-! ### The entry to OFF moves records alone -/

/-- A buffer given back moves only the records of the target unit (R164). -/
theorem giveBack_port {b : RxBuffer} : ∃ rs, (giveBack p b s).port p =
    { s.port p with tgt := { (s.port p).tgt with records := rs } } := by
  unfold giveBack pushRecord
  dsimp only
  split
  next empty =>
    have records : ((s.modTarget p fun T => { T with records := T.records ++
        [{ receive := { record := unusedRecord p b s.timebase, cq := b.cq }, message := false }] }).port p).tgt.records =
        [{ receive := { record := unusedRecord p b s.timebase, cq := b.cq }, message := false }] := by
      simp [List.isEmpty_iff.mp empty]
    unfold offerTarget
    rw [records, List.length_singleton, offerTargetN, records]
    dsimp only
    split
    next w taken =>
      refine ⟨((w.port p).tgt.records.tail), ?_⟩
      simp only [offerTargetN, targetAccepted, Bool.false_eq_true, if_false, modTarget_eq, port_modPort, if_true,
        tryOffer_port taken]
    next => exact ⟨_, by rw [port_modTarget, if_pos rfl]⟩
  next => exact ⟨_, by rw [port_modTarget, if_pos rfl]⟩

theorem enterOff_stats : ((enterOff p s).port p).stats = (s.port p).stats := by
  rw [enterOff_eq, completeIf_port]
  unfold offLeft
  split
  next b _ =>
    obtain ⟨rs, same⟩ := giveBack_port (p := p) (b := b) (s := s.modPort p Port.switchedOff)
    rw [same, port_switchedOff]
    rfl
  · rw [port_switchedOff]
    rfl

theorem enterOff_mgmt (h : s.mgmt.command = none) : (enterOff p s).mgmt = s.mgmt := by
  rw [enterOff_eq, completeIf_left (by
    rw [State.commandAt, offLeft_mgmt]
    exact commandAt_eq_false h), offLeft_mgmt]

/-! ### A port settles -/

/-- Between `s` and `v` port `p` has become `f` of what it was, and a command that waits for it, other than DISABLE
PORT, has completed with the status and value. -/
structure Settled (p : PortId) (status : Status) (value : Word) (f : Port → Port) (s v : State) : Prop where
  port : v.port p = f (s.port p)
  eq : v = { s with ports := v.ports, mgmt := v.mgmt }
  command : ∀ e w, w ≠ .disable → s.mgmt.command = some { entry := e, phase := .port p w } →
    v.mgmt.command = none ∧ v.mgmt.due = some (completionRecord e status value 0 s.timebase)
  before : BeforeOff p s v

/-- On a port told to disable the entry to OFF follows, which keeps what has been counted and answered (R94). -/
theorem Settled.off {status : Status} {value : Word} {f : Port → Port} (h : Settled p status value f s v) :
    SwitchedOff s (enterOff p v) p ∧ ((enterOff p v).port p).stats = (f (s.port p)).stats ∧
      (∀ e w, w ≠ .disable → s.mgmt.command = some { entry := e, phase := .port p w } →
        (enterOff p v).mgmt.command = none ∧
          (enterOff p v).mgmt.due = some (completionRecord e status value 0 s.timebase)) ∧
      (∀ q, q ≠ p → (enterOff p v).port q = s.port q) ∧ ∀ x ∈ v.mgmt.latches, x ∈ (enterOff p v).mgmt.latches := by
  have side : TargetSide p v (enterOff p v) := side_enterOff .same
  refine ⟨switchedOff_enterOff.before h.before, by rw [enterOff_stats, h.port], fun e w hw he => ?_,
    fun q hq => (side.other q hq).trans (h.before.other q hq), side.latches⟩
  obtain ⟨none, due⟩ := h.command e w hw he
  rw [enterOff_mgmt none]
  exact ⟨none, due⟩

theorem completeIf_answers {ph : CmdPhase} {x : Status} {a : Word}
    (h : s.mgmt.command = some { entry := e, phase := ph }) : (completeIf ph x a s).mgmt.command = none ∧
      (completeIf ph x a s).mgmt.due = some (completionRecord e x a 0 s.timebase) := by
  rw [completeIf_at h]
  exact ⟨rfl, rfl⟩

theorem completeIf_none {ph : CmdPhase} {x : Status} {a : Word} (h : s.mgmt.command = none) :
    completeIf ph x a s = s := completeIf_left (commandAt_eq_false h)

theorem completeIf_waits {ph ph' : CmdPhase} {x : Status} {a : Word}
    (h : s.mgmt.command = some { entry := e, phase := ph' }) (ne : ph' ≠ ph) : completeIf ph x a s = s :=
  completeIf_left (by simp [State.commandAt, h, ne])

/-- What a failure makes of the port (R99, R100). -/
def Port.failed (x : FaultReason) (P : Port) : Port :=
  { P with
    state := .faulted, inStep := false, awaitAddr := false, enabling := false,
    reason := some x, recovery := .none, sclDriven := false, sdaDriven := false,
    stats := { P.stats with faults := P.stats.faults + 1 } }

/-- The failure before a pending entry to OFF: counted and latched, with the waiting command answered STUCK. -/
def State.failing (s : State) (p : PortId) (x : FaultReason) : State :=
  completeIf (.port p .restart) .stuck (x.code.setWidth 32)
    (completeIf (.port p .enable) .stuck (x.code.setWidth 32) (setLatch (.portFault p) x.code
      (s.modPort p (Port.failed x))))

theorem failing_port {x : FaultReason} (r : PortId) :
    (s.failing p x).port r = if p = r then (s.port p).failed x else s.port r := by
  rw [State.failing, completeIf_port, completeIf_port, setLatch_port, port_modPort]

theorem enterFaulted_failing {x : FaultReason} (none : (s.port p).inService = none) :
    enterFaulted p x s = if (s.port p).tgt.disableTold then enterOff p (s.failing p x) else s.failing p x := by
  have serves : ((s.failing p x).port p).inService = Option.none := by rw [failing_port, if_pos rfl]; exact none
  have told : ((s.failing p x).port p).tgt.disableTold = (s.port p).tgt.disableTold := by
    rw [failing_port, if_pos rfl]
    rfl
  have left : faultService p x (s.failing p x) = s.failing p x := by
    unfold faultService
    rw [serves]
  have shape : enterFaulted p x s =
      (fun v => if (v.port p).tgt.disableTold then enterOff p v else v) (faultService p x (s.failing p x)) := rfl
  rw [shape, left, ← told]

theorem failing_latch {x : FaultReason} : ∃ y ∈ (s.failing p x).mgmt.latches, y.latch = .portFault p := by
  rw [State.failing, completeIf_latches, completeIf_latches]
  exact setLatch_mem _ _

theorem settled_failing {x : FaultReason} :
    Settled p .stuck (x.code.setWidth 32) (Port.failed x) s (s.failing p x) where
  port := (failing_port p).trans (if_pos rfl)
  eq := by
    rw [State.failing, completeIf_eq, completeIf_eq, setLatch_eq]
    rfl
  command := fun e w hw he => by
    have latched : (setLatch (.portFault p) x.code (s.modPort p (Port.failed x))).mgmt.command =
        some { entry := e, phase := .port p w } := by
      rw [setLatch_keeps]
      exact he
    have time : (setLatch (.portFault p) x.code (s.modPort p (Port.failed x))).timebase = s.timebase :=
      setLatch_timebase ..
    unfold State.failing
    cases w
    case disable => exact absurd rfl hw
    case enable =>
      obtain ⟨none, due⟩ := completeIf_answers (x := .stuck) (a := x.code.setWidth 32) latched
      rw [completeIf_none none, due, time]
      exact ⟨none, rfl⟩
    case restart =>
      rw [completeIf_waits latched (by simp)]
      obtain ⟨none, due⟩ := completeIf_answers (x := .stuck) (a := x.code.setWidth 32) latched
      rw [due, time]
      exact ⟨none, rfl⟩
  before := by
    refine BeforeOff.trans (BeforeOff.trans (BeforeOff.trans ?_ beforeOff_setLatch) (beforeOff_completeIf (by simp)))
      (beforeOff_completeIf (by simp))
    exact beforeOff_modPort rfl rfl rfl rfl (.inl rfl)

/-! ### A recovery or a restart succeeds (R98, R101) -/

/-- What a success makes of the port, `counted` recoveries being counted (R98, R101). -/
def Port.recovered (x counted : Word) (P : Port) : Port :=
  { P with
    state := .idle, inStep := true, busFree := true, awaitAddr := false, reason := none,
    enabling := false, recovery := .none, sclDriven := false, sdaDriven := false,
    clockLowFrom := x, stuckDataFrom := x,
    stats := { P.stats with recoveries := P.stats.recoveries + counted } }

/-- What a success ended by another device's START makes of it. -/
def Port.recoveredBusy (x counted : Word) (P : Port) : Port :=
  { P with
    state := .observing, recovery := .none, inStep := false, busFree := false, awaitAddr := true, reason := none,
    sclDriven := false, sdaDriven := false, clockLowFrom := x, stuckDataFrom := x,
    stats := { P.stats with recoveries := P.stats.recoveries + counted } }

/-- The state a success leaves the recovery from: counted and latched, or a restart's. -/
def State.succeeding (s : State) (p : PortId) (counted : Bool) : State :=
  if counted then setLatch (.portRecovered p) 0 (s.modStats p fun c => { c with recoveries := c.recoveries + 1 })
  else s

theorem succeeding_port {counted : Bool} (r : PortId) : (s.succeeding p counted).port r =
    if p = r then { s.port p with stats := { (s.port p).stats with
      recoveries := (s.port p).stats.recoveries + if counted then 1 else 0 } } else s.port r := by
  unfold State.succeeding
  cases counted
  · by_cases h : p = r
    · subst h
      simp
    · simp [h]
  · simp

theorem succeeding_eq {counted : Bool} : s.succeeding p counted =
    { s with ports := (s.succeeding p counted).ports, mgmt := (s.succeeding p counted).mgmt } := by
  unfold State.succeeding
  split
  · rw [setLatch_eq]
    rfl
  · rfl

theorem succeeding_command {counted : Bool} : (s.succeeding p counted).mgmt.command = s.mgmt.command := by
  unfold State.succeeding
  split
  · rw [setLatch_keeps]
    rfl
  · rfl

theorem beforeOff_succeeding {counted : Bool} : BeforeOff p s (s.succeeding p counted) := by
  unfold State.succeeding
  split
  · refine BeforeOff.trans ?_ beforeOff_setLatch
    exact beforeOff_modPort rfl rfl rfl rfl (.inl rfl)
  · exact .same

/-- RESTART PORT completes as the recovery is left (R101). -/
def State.restarted (s : State) (p : PortId) (counted : Bool) : State :=
  completeIf (.port p .restart) .success 0
    (releaseLines p ((s.succeeding p counted).modPort p fun P => { P with recovery := .none }))

theorem restarted_port {counted : Bool} (r : PortId) : (s.restarted p counted).port r =
    if p = r then { s.port p with
      recovery := .none, sclDriven := false, sdaDriven := false,
      stats := { (s.port p).stats with
        recoveries := (s.port p).stats.recoveries + if counted then 1 else 0 } } else s.port r := by
  rw [State.restarted, completeIf_port, releaseLines, modPort_modPort, port_modPort, succeeding_port, succeeding_port,
    if_pos rfl]
  by_cases h : p = r
  · rw [if_pos h, if_pos h]
  · rw [if_neg h, if_neg h, if_neg h]

theorem restarted_eq {counted : Bool} : s.restarted p counted =
    { s with ports := (s.restarted p counted).ports, mgmt := (s.restarted p counted).mgmt } := by
  unfold State.restarted
  rw [completeIf_eq, succeeding_eq]
  rfl

theorem beforeOff_restarted {counted : Bool} : BeforeOff p s (s.restarted p counted) := by
  unfold State.restarted releaseLines
  rw [modPort_modPort]
  refine ((beforeOff_succeeding (counted := counted)).trans ?_).trans (beforeOff_completeIf (by simp))
  exact beforeOff_modPort rfl rfl rfl rfl (.inl rfl)

/-- RESTART PORT completes, and no other command. -/
theorem restarted_answers {counted : Bool} (h : s.mgmt.command = some { entry := e, phase := .port p .restart }) :
    (s.restarted p counted).mgmt.command = none ∧
      (s.restarted p counted).mgmt.due = some (completionRecord e .success 0 0 s.timebase) := by
  have held : (releaseLines p ((s.succeeding p counted).modPort p fun P =>
      { P with recovery := .none })).mgmt.command = some { entry := e, phase := .port p .restart } :=
    succeeding_command.trans h
  have time : (releaseLines p ((s.succeeding p counted).modPort p fun P =>
      { P with recovery := .none })).timebase = s.timebase := by
    rw [succeeding_eq]
    rfl
  obtain ⟨none, due⟩ := completeIf_answers (x := .success) (a := 0) held
  exact ⟨none, by rw [State.restarted, due, time]⟩

theorem restarted_waits {counted : Bool} (h : s.commandAt (.port p .restart) = false) :
    (s.restarted p counted).mgmt.command = s.mgmt.command := by
  unfold State.restarted
  rw [completeIf_left]
  · exact succeeding_command
  · rw [← h]
    unfold State.commandAt
    rw [show (releaseLines p ((s.succeeding p counted).modPort p fun P =>
      { P with recovery := .none })).mgmt.command = s.mgmt.command from succeeding_command]

theorem restarted_latch : ∃ x ∈ (s.restarted p true).mgmt.latches, x.latch = .portRecovered p := by
  rw [State.restarted, completeIf_latches]
  exact setLatch_mem _ _

/-- The port goes on to IDLE, the enabling wait ending with it (R93). -/
def State.idling (s : State) (p : PortId) (counted : Bool) : State :=
  completeIf (.port p .enable) .success 0 ((s.restarted p counted).modPort p fun P => { P with
    state := .idle, inStep := true, busFree := true, awaitAddr := false, reason := none,
    enabling := false, clockLowFrom := (s.restarted p counted).timebase,
    stuckDataFrom := (s.restarted p counted).timebase })

theorem restarted_time {counted : Bool} : (s.restarted p counted).timebase = s.timebase := by rw [restarted_eq]

theorem idling_port {counted : Bool} : (s.idling p counted).port p =
    (s.port p).recovered s.timebase (if counted then 1 else 0) := by
  rw [State.idling, completeIf_port, port_modPort, if_pos rfl, restarted_port, if_pos rfl, restarted_time]
  rfl

theorem idling_latch : ∃ x ∈ (s.idling p true).mgmt.latches, x.latch = .portRecovered p := by
  rw [State.idling, completeIf_latches]
  exact restarted_latch

theorem settled_idling {counted : Bool} :
    Settled p .success 0 (Port.recovered s.timebase (if counted then 1 else 0)) s (s.idling p counted) where
  port := idling_port
  eq := by
    rw [State.idling, completeIf_eq, restarted_eq]
    rfl
  command := fun e w hw he => by
    have there (ph : CmdPhase) (x : Status) (a : Word) (u : State) (f : Port → Port) :
        (completeIf ph x a (u.modPort p f)).mgmt = (completeIf ph x a u).mgmt := by
      unfold completeIf completeCommand State.commandAt
      rw [modPort_mgmt]
      split
      · split <;> rfl
      · rfl
    unfold State.idling
    rw [there]
    cases w
    case disable => exact absurd rfl hw
    case restart =>
      obtain ⟨none, due⟩ := restarted_answers (counted := counted) he
      rw [completeIf_none none]
      exact ⟨none, due⟩
    case enable =>
      have held : (s.restarted p counted).mgmt.command = some { entry := e, phase := .port p .enable } :=
        (restarted_waits (by simp [State.commandAt, he])).trans he
      obtain ⟨none, due⟩ := completeIf_answers (x := .success) (a := 0) held
      rw [due, restarted_time]
      exact ⟨none, rfl⟩
  before := by
    refine ((beforeOff_restarted (counted := counted)).trans ?_).trans (beforeOff_completeIf (by simp))
    exact beforeOff_modPort rfl rfl rfl rfl (.inl rfl)

theorem leaveRecovery_idle {counted : Bool} : leaveRecovery p true (s.succeeding p counted) =
    if (s.port p).tgt.disableTold then enterOff p (s.idling p counted) else s.idling p counted := by
  have told : ((s.idling p counted).port p).tgt.disableTold = (s.port p).tgt.disableTold := by
    rw [idling_port]
    rfl
  rw [← told]
  rfl

/-- The port goes on in OBSERVING, another device's START having ended the wait. -/
def State.busied (s : State) (p : PortId) (counted : Bool) : State :=
  (s.restarted p counted).modPort p fun P => { P with
    state := .observing, inStep := false, busFree := false, awaitAddr := true, reason := none,
    clockLowFrom := (s.restarted p counted).timebase, stuckDataFrom := (s.restarted p counted).timebase }

theorem busied_port {counted : Bool} : (s.busied p counted).port p =
    (s.port p).recoveredBusy s.timebase (if counted then 1 else 0) := by
  rw [State.busied, port_modPort, if_pos rfl, restarted_port, if_pos rfl, restarted_time]
  rfl

theorem leaveRecovery_busy {counted : Bool} : leaveRecovery p false (s.succeeding p counted) =
    if (s.port p).tgt.disableTold then enterOff p (s.busied p counted) else s.busied p counted := by
  have told : ((s.busied p counted).port p).tgt.disableTold = (s.port p).tgt.disableTold := by
    rw [busied_port]
    rfl
  rw [← told]
  rfl

theorem beforeOff_busied {counted : Bool} : BeforeOff p s (s.busied p counted) := by
  refine (beforeOff_restarted (counted := counted)).trans ?_
  exact beforeOff_modPort rfl rfl rfl rfl (.inl rfl)

/-! ### The rows -/

/-- The state in which the monitor has taken another device's START (R88). -/
def State.startTaken (s : State) (p : PortId) : State :=
  s.modPort p fun P =>
    { P with busFree := false, idleFrom := s.timebase, clockLowFrom := s.timebase, stuckDataFrom := s.timebase }

/-- Another device's START ends the final wait of a recovery, and the wait of a restart (R98, R101). -/
theorem startSeen_recovering (run : Running s) (state : (s.port p).state = .recovering) {x : Word} {counted : Bool}
    (waits : (s.port p).recovery = .finalWait x ∧ counted = true ∨
      (s.port p).recovery = .restartWait x ∧ counted = false) :
    startSeen p s = if (s.port p).tgt.disableTold then enterOff p ((s.startTaken p).busied p counted)
      else (s.startTaken p).busied p counted := by
  have taken : touch p (setVerdict p false s) = s.startTaken p := by
    rw [touch, setVerdict, modPort_modPort]
    rfl
  have port : (s.startTaken p).port p = { s.port p with
      busFree := false, idleFrom := s.timebase, clockLowFrom := s.timebase, stuckDataFrom := s.timebase } :=
    (port_modPort ..).trans (if_pos rfl)
  have told : ((s.startTaken p).port p).tgt.disableTold = (s.port p).tgt.disableTold := by rw [port]
  have ends : startEndsWait p (s.startTaken p) = leaveRecovery p false ((s.startTaken p).succeeding p counted) := by
    unfold startEndsWait
    rw [port]
    rcases waits with ⟨r, rfl⟩ | ⟨r, rfl⟩
    · simp only [r]
      rfl
    · simp only [r]
      rfl
  have judged : ((setVerdict p false s).port p).state = .recovering := by
    rw [setVerdict, port_modPort, if_pos rfl]
    exact state
  unfold startSeen
  rw [if_neg (by rw [state]; nofun)]
  dsimp only
  rw [judged]
  dsimp only
  rw [taken, if_pos (show (s.startTaken p).link.ctrl = .running from run.2), ends, leaveRecovery_busy, told]

theorem beforeOff_startTaken : BeforeOff p s (s.startTaken p) := beforeOff_modPort rfl rfl rfl rfl (.inl rfl)

theorem limitExpiry_of {high : Bool} {x : Word} {reason : FaultReason}
    (h : waitLimit high (s.port p).recovery = some (x, reason)) :
    limitExpiry p high s = if 10000 ≤ (s.timebase - x).toNat then enterFaulted p reason s else s := by
  unfold limitExpiry
  rw [h]
  rfl

/-- The entry to FAULTED with a transaction in service, as R60 gives (R60, R100). -/
theorem faultService_of {k : SlotId} {x : Txn} {reason : FaultReason} (serves : (s.port p).inService = some k)
    (held : s.txn k = some x) :
    (x.state = .staging → faultService p reason s = setPendingResult p .busFault reason.code s) ∧
      (x.state = .ready ∨ x.state = .retryWait →
        faultService p reason s = fixOutside p k .busFault reason.code s) ∧
      (x.state = .draining ∨ x.state = .posting → faultService p reason s = s) := by
  unfold faultService
  simp only [serves, held]
  refine ⟨fun is => by simp only [is], fun is => ?_, fun is => ?_⟩ <;> rcases is with is | is <;> simp only [is]

/-- A port with a transaction in service enters FAULTED: the failure, and then what R60 makes of the transaction. -/
theorem enterFaulted_serving {x : FaultReason} (told : (s.port p).tgt.disableTold = false)
    (same : ((faultService p x (s.failing p x)).port p).tgt = (s.port p).tgt) :
    enterFaulted p x s = faultService p x (s.failing p x) := by
  have shape : enterFaulted p x s =
      (fun v => if (v.port p).tgt.disableTold then enterOff p v else v) (faultService p x (s.failing p x)) := rfl
  rw [shape]
  dsimp only
  rw [same, told]
  exact if_neg nofun

/-- What of `r` the entry to FAULTED of port `p` is said of is the same in `s`. -/
structure FaultBase (p : PortId) (r s : State) : Prop where
  list : (s.port p).list = (r.port p).list
  inService : (s.port p).inService = (r.port p).inService
  pending : (s.port p).pendingResult = (r.port p).pendingResult
  completed : (s.port p).stats.completed = (r.port p).stats.completed
  disable : (s.port p).disablePending = (r.port p).disablePending
  slots : s.slots = r.slots
  comp : s.comp = r.comp
  rqs : s.rqs = r.rqs
  cqs : s.cqs = r.cqs
  time : s.timebase = r.timebase

theorem FaultBase.same : FaultBase p s s := ⟨rfl, rfl, rfl, rfl, rfl, rfl, rfl, rfl, rfl, rfl⟩

theorem FaultBase.failing {r : State} {x : FaultReason} (h : FaultBase p r s) : FaultBase p r (s.failing p x) := by
  have port : (s.failing p x).port p = (s.port p).failed x := (failing_port p).trans (if_pos rfl)
  have eq := (settled_failing (s := s) (p := p) (x := x)).eq
  exact {
    list := by rw [port, ← h.list]; rfl
    inService := by rw [port, ← h.inService]; rfl
    pending := by rw [port, ← h.pending]; rfl
    completed := by rw [port, ← h.completed]; rfl
    disable := by rw [port, ← h.disable]; rfl
    slots := by rw [eq, ← h.slots]
    comp := by rw [eq, ← h.comp]
    rqs := by rw [eq, ← h.rqs]
    cqs := by rw [eq, ← h.cqs]
    time := by rw [eq, ← h.time] }

/-- What the fault makes of the port, but for its service (R100). -/
def Port.Faulted (x : FaultReason) (P Q : Port) : Prop :=
  Q.state = .faulted ∧ Q.reason = some x ∧ Q.stats.faults = P.stats.faults + 1

/-- The entry to FAULTED with a transaction in service (R60, R100). -/
theorem enterFaulted_service {r : State} {x : FaultReason} {k : SlotId} {t : Txn} (base : FaultBase p r s)
    (told : (s.port p).tgt.disableTold = false) (serves : (r.port p).inService = some k) (held : r.txn k = some t)
    (states : t.state ∈ [TxnState.staging, .ready, .retryWait, .draining, .posting])
    (can : t.state = .ready ∨ t.state = .retryWait → CanPost r p t) :
    (s.port p).Faulted x ((enterFaulted p x s).port p) ∧
      (∃ y ∈ (enterFaulted p x s).mgmt.latches, y.latch = .portFault p) ∧
      FaultEndsService x r (enterFaulted p x s) p k t := by
  have port : (s.failing p x).port p = (s.port p).failed x := (failing_port p).trans (if_pos rfl)
  have base' := base.failing (x := x)
  have serves' : ((s.failing p x).port p).inService = some k := base'.inService.trans serves
  have held' : (s.failing p x).txn k = some t := by
    unfold State.txn at held ⊢
    rw [base'.slots]
    exact held
  have faulted : (s.port p).Faulted x ((s.failing p x).port p) := by
    rw [port]
    exact ⟨rfl, rfl, rfl⟩
  obtain ⟨whenStaging, whenEnds, whenRests⟩ := faultService_of (reason := x) serves' held'
  have tgt : ((s.failing p x).port p).tgt = (s.port p).tgt := by rw [port]; rfl
  unfold FaultEndsService
  dsimp only
  by_cases staging : t.state = .staging
  · have service := whenStaging staging
    have set : ((setPendingResult p .busFault x.code (s.failing p x)).port p) = { (s.failing p x).port p with
        pendingResult := if ((s.failing p x).port p).pendingResult.isSome then ((s.failing p x).port p).pendingResult
          else some (.busFault, x.code) } := (port_modPort ..).trans (if_pos rfl)
    have goes : enterFaulted p x s = setPendingResult p .busFault x.code (s.failing p x) := by
      rw [enterFaulted_serving told (by rw [service, set]; exact tgt), service]
    rw [goes, set]
    refine ⟨faulted, failing_latch, fun _ => ⟨⟨held', serves', base'.list⟩, ?_⟩,
      fun h => absurd h (by simp [staging]), fun h => absurd h (by simp [staging])⟩
    dsimp only
    rw [base'.pending]
    cases (r.port p).pendingResult <;> rfl
  · by_cases ends : t.state = .ready ∨ t.state = .retryWait
    · have service := whenEnds ends
      have can' : CanPost (s.failing p x) p t := (can ends).congr rfl rfl base'.comp base'.rqs base'.cqs base'.disable
      have posted := fixOutside_posts (d := x.code) (r := .busFault) serves' held' nofun can'
      have left : ((((s.failing p x).cleared p).posted p k (t.fixed .busFault x.code (s.failing p x).timebase)).port p) =
          (((s.failing p x).cleared p).port p).left := port_posted_self
      have goes : enterFaulted p x s = ((s.failing p x).cleared p).posted p k
          (t.fixed .busFault x.code (s.failing p x).timebase) := by
        rw [enterFaulted_serving told (by rw [service, posted, left, port_cleared]; exact tgt), service, posted]
      rw [goes, left, port_cleared]
      refine ⟨faulted, ?_, fun h => absurd h staging, fun h => ?_, fun _ can => ?_⟩
      · rw [posted_mgmt]
        exact failing_latch
      · exact absurd h (by rcases ends with e | e <;> simp [e])
      · rw [base'.time]
        exact recordPosted_posted (x := t.fixed .busFault x.code r.timebase) can.1 base'.comp base'.rqs base'.cqs
          (by rw [port_cleared]; exact base'.list) (by rw [port_cleared]; exact base'.completed)
    · have rests : t.state = .draining ∨ t.state = .posting := by
        simp only [List.mem_cons, List.not_mem_nil, or_false] at states
        rcases states with h | h | h | h | h
        · exact absurd h staging
        · exact absurd (.inl h) ends
        · exact absurd (.inr h) ends
        · exact .inl h
        · exact .inr h
      have service := whenRests rests
      have goes : enterFaulted p x s = s.failing p x := by
        rw [enterFaulted_serving told (by rw [service]; exact tgt), service]
      rw [goes]
      exact ⟨faulted, failing_latch, fun h => absurd h staging, fun _ => ⟨⟨held', serves', base'.list⟩, base'.pending⟩,
        fun h => absurd h ends⟩

end Sys2Proof.Machine

namespace Sys2Proof.Proofs
open Sys2Proof.Machine

/-- Settles O53: each event against the wait the port is in; its end by `Settled`. -/
theorem recoveryRuns : Obligations.RecoveryRuns := by
  unfold Obligations.RecoveryRuns
  refine ⟨fun s p run none => ?_, fun s p k x t run serves held states can told waits late => ?_⟩
  · intro R told at_ completes fails succeeds
    have fails_of (c : Instr) (reason : FaultReason) (row : exec c s = .next (enterFaulted p reason s)) :
        fails c reason := by
      obtain ⟨off, stats, answers, other, latches⟩ := (settled_failing (s := s) (p := p) (x := reason)).off
      have settled := settled_failing (s := s) (p := p) (x := reason)
      obtain ⟨y, mem, is⟩ := failing_latch (s := s) (p := p) (x := reason)
      cases h : (s.port p).tgt.disableTold
      · refine ⟨s.failing p reason, row.trans (by rw [enterFaulted_failing none, h]; rfl), fun _ => settled.port,
          fun no => absurd no (by simp [told, h]), ⟨y, mem, is⟩, settled.command, fun _ => settled.eq,
          settled.before.other⟩
      · refine ⟨enterOff p (s.failing p reason), row.trans (by rw [enterFaulted_failing none, h]; rfl),
          fun no => absurd no (by simp [told, h]), fun _ => ⟨off, stats⟩, ⟨y, latches y mem, is⟩, answers,
          fun no => absurd no (by simp [told, h]), other⟩
    have succeeds_of (c : Instr) (counted : Bool)
        (row : exec c s = .next (leaveRecovery p true (s.succeeding p counted))) :
        succeeds c (if counted then 1 else 0) := by
      obtain ⟨off, stats, answers, other, latches⟩ := (settled_idling (s := s) (p := p) (counted := counted)).off
      have settled := settled_idling (s := s) (p := p) (counted := counted)
      have latched : (if counted then (1 : Word) else 0) = 1 →
          ∃ y ∈ (s.idling p counted).mgmt.latches, y.latch = .portRecovered p := by
        cases counted
        · exact fun h => absurd h (by decide)
        · exact fun _ => idling_latch
      cases h : (s.port p).tgt.disableTold
      · refine ⟨s.idling p counted, row.trans (by rw [leaveRecovery_idle, h]; rfl), fun _ => settled.port,
          fun no => absurd no (by simp [told, h]), latched, settled.command, fun _ => settled.eq, settled.before.other⟩
      · refine ⟨enterOff p (s.idling p counted), row.trans (by rw [leaveRecovery_idle, h]; rfl),
          fun no => absurd no (by simp [told, h]), fun _ => ⟨off, stats⟩, fun one => ?_, answers,
          fun no => absurd no (by simp [told, h]), other⟩
        obtain ⟨y, mem, is⟩ := latched one
        exact ⟨y, latches y mem, is⟩
    have sclHigh_row (b : Bool) : exec (.recoverySclHigh p b) s = .next (sclHigh p b s) :=
      congrArg _ (whenRunning_of_running run)
    have pulse_row (b : Bool) : exec (.recoveryPulse p b) s = .next (pulseEnd p b s) :=
      congrArg _ (whenRunning_of_running run)
    have stop_row (b d : Bool) : exec (.recoveryStop p b d) s = .next (recoveryStopEnd p b d s) :=
      congrArg _ (whenRunning_of_running run)
    have final_row : exec (.recoveryFinalWaitEnd p) s = .next (finalWaitEnd p s) :=
      congrArg _ (whenRunning_of_running run)
    have restart_row : exec (.restartIdleWaitEnd p) s = .next (restartWaitEnd p s) :=
      congrArg _ (whenRunning_of_running run)
    have limit_row (b : Bool) : exec (.recoveryLimitExpiry p b) s = .next (limitExpiry p b s) :=
      congrArg _ (whenRunning_of_running run)
    have start_row : exec (.busStartSeen p) s = .next (startSeen p s) := congrArg _ (awake_of_awake run.1)
    have stopping : startRecoveryStop p s = at_ (.stopping s.timebase) true := by
      rw [startRecoveryStop, touch, modPort_modPort]
      rfl
    have limited (high : Bool) (x : Word) (reason : FaultReason)
        (h : waitLimit high (s.port p).recovery = some (x, reason)) :
        (10000 ≤ (s.timebase - x).toNat → fails (.recoveryLimitExpiry p high) reason) ∧
          ((s.timebase - x).toNat < 10000 → exec (.recoveryLimitExpiry p high) s = .next s) :=
      ⟨fun late => fails_of _ _ ((limit_row high).trans (by rw [limitExpiry_of h, if_pos late])),
        fun early => (limit_row high).trans (by rw [limitExpiry_of h, if_neg (Nat.not_le.mpr early)])⟩
    refine ⟨fun t waits => ⟨?_, ?_⟩, fun g t waits => ⟨?_, fun more => ?_, fun last => ?_⟩,
      fun t waits => ⟨?_, ?_, fun late b => ?_, fun early b => ?_⟩, fun idle => ⟨fun t waits => ?_, fun t waits => ?_⟩,
      fun busy => ⟨?_, ?_⟩, fun high t => ⟨fun waits => ?_, fun waits => ?_⟩, fun t isTold state waits => ?_,
      fun t counted untold state waits => ?_, fun waits b d => ?_⟩
    · rw [sclHigh_row, sclHigh, show (s.port p).recovery = _ from waits]
      exact congrArg _ stopping
    · rw [sclHigh_row, sclHigh, show (s.port p).recovery = _ from waits]
      exact congrArg _ (modPort_modPort ..)
    · rw [pulse_row, pulseEnd, show (s.port p).recovery = _ from waits]
      exact congrArg _ stopping
    · rw [pulse_row, pulseEnd, show (s.port p).recovery = _ from waits]
      refine congrArg _ ((if_neg (Nat.not_le.mpr more)).trans (modPort_modPort ..))
    · refine fails_of _ _ ((pulse_row false).trans ?_)
      rw [pulseEnd, show (s.port p).recovery = _ from waits]
      exact congrArg _ (if_pos last)
    · rw [stop_row, recoveryStopEnd, show (s.port p).recovery = _ from waits]
      refine congrArg Host.Outcome.next ?_
      simp only [Bool.not_true, Bool.false_eq_true, if_false, touch, releaseLines, modPort_modPort]
      rfl
    · refine fails_of _ _ ((stop_row true false).trans ?_)
      rw [recoveryStopEnd, show (s.port p).recovery = _ from waits]
      rfl
    · refine fails_of _ _ ((stop_row false b).trans ?_)
      rw [recoveryStopEnd, show (s.port p).recovery = _ from waits]
      exact congrArg _ (if_pos late)
    · rw [stop_row, recoveryStopEnd, show (s.port p).recovery = _ from waits]
      exact congrArg _ (if_neg (Nat.not_le.mpr early))
    · refine succeeds_of _ true (final_row.trans ?_)
      rw [finalWaitEnd, show (s.port p).recovery = _ from waits]
      exact congrArg _ (if_pos (decide_eq_true idle))
    · refine succeeds_of _ false (restart_row.trans ?_)
      rw [restartWaitEnd, show (s.port p).recovery = _ from waits]
      exact congrArg _ (if_pos (decide_eq_true idle))
    · rw [final_row, finalWaitEnd]
      refine congrArg _ ?_
      split
      · exact if_neg (mt of_decide_eq_true (Nat.not_le.mpr busy))
      · rfl
    · rw [restart_row, restartWaitEnd]
      refine congrArg _ ?_
      split
      · exact if_neg (mt of_decide_eq_true (Nat.not_le.mpr busy))
      · rfl
    · refine limited high t .sclStuck ?_
      rcases waits with w | ⟨g, w⟩ | w <;> rw [show (s.port p).recovery = _ from w] <;> rfl
    · refine limited high t _ ?_
      rcases waits with w | w <;> rw [show (s.port p).recovery = _ from w] <;> rfl
    · obtain ⟨counted, waits⟩ : ∃ counted, (s.port p).recovery = .finalWait t ∧ counted = true ∨
          (s.port p).recovery = .restartWait t ∧ counted = false := by
        rcases waits with w | w
        · exact ⟨true, .inl ⟨w, rfl⟩⟩
        · exact ⟨false, .inr ⟨w, rfl⟩⟩
      have isTold : (s.port p).tgt.disableTold = true := isTold
      refine ⟨enterOff p ((s.startTaken p).busied p counted),
        start_row.trans (by rw [startSeen_recovering run state waits, isTold]; rfl),
        switchedOff_enterOff.before (beforeOff_startTaken.trans beforeOff_busied)⟩
    · obtain ⟨c, waits, amount⟩ : ∃ c : Bool, ((s.port p).recovery = .finalWait t ∧ c = true ∨
          (s.port p).recovery = .restartWait t ∧ c = false) ∧ (if c then (1 : Word) else 0) = counted := by
        rcases waits with ⟨w, rfl⟩ | ⟨w, rfl⟩
        · exact ⟨true, .inl ⟨w, rfl⟩, rfl⟩
        · exact ⟨false, .inr ⟨w, rfl⟩, rfl⟩
      have port : (s.startTaken p).port p = { s.port p with
          busFree := false, idleFrom := s.timebase, clockLowFrom := s.timebase, stuckDataFrom := s.timebase } :=
        (port_modPort ..).trans (if_pos rfl)
      have untold : (s.port p).tgt.disableTold = false := untold
      refine ⟨(s.startTaken p).busied p c,
        start_row.trans (by rw [startSeen_recovering run state waits, untold]; rfl),
        ?_, fun one => ?_, fun e held => ?_, fun other => ?_, ?_, fun r hr => ?_⟩
      · rw [busied_port, port, amount]
        rfl
      · subst amount
        cases c
        · exact absurd one (by decide)
        · exact restarted_latch
      · exact restarted_answers (s := s.startTaken p) held
      · exact restarted_waits (s := s.startTaken p) other
      · rw [State.busied, restarted_eq]
        rfl
      · exact (beforeOff_busied.other r hr).trans (beforeOff_startTaken.other r hr)
    · have waits : (s.port p).recovery = .none := waits
      intro c mem
      simp only [List.mem_cons, List.not_mem_nil, or_false] at mem
      rcases mem with rfl | rfl | rfl | rfl | rfl | rfl
      · rw [sclHigh_row, sclHigh, waits]
      · rw [pulse_row, pulseEnd, waits]
      · rw [stop_row, recoveryStopEnd, waits]
      · rw [final_row, finalWaitEnd, waits]
      · rw [restart_row, restartWaitEnd, waits]
      · rw [limit_row, limitExpiry, waits]
        rfl
  · have row : exec (.recoveryLimitExpiry p false) s = .next (enterFaulted p .sclStuck s) := by
      refine congrArg _ ((whenRunning_of_running run).trans ?_)
      rw [limitExpiry_of (x := t) (reason := .sclStuck) (by rw [waits]; rfl), if_pos late]
    obtain ⟨⟨state, reason, -⟩, latch, ends⟩ :=
      enterFaulted_service (x := .sclStuck) .same told serves held states can
    exact ⟨_, row, state, reason, latch, ends⟩

end Sys2Proof.Proofs
end

section
/-! SUPPORT. The receive unit's fetch (R162, R163), whose end takes every waiting mailbox decision again (R155). From
them the statement BuffersAreFetched. -/

namespace Sys2Proof.Machine

variable {r s t u v w : State} {p q : PortId} {n : CqId} {data : List Byte}

/-! ### Decisions taken twice -/

/-- What one round of decisions has left, a second leaves (R155). -/
theorem DecidesAgain.again (h : DecidesAgain v w p) (g : DecidesAgain w u p) (rx : w.rx = v.rx)
    (latches : ∀ x ∈ w.mgmt.latches, x ∈ u.mgmt.latches) : DecidesAgain v u p := by
  have settled (not : ∀ who a x, (w.port p).tgt.transfer ≠ .deciding who a x) : u.port p = w.port p := g.1 not
  refine ⟨fun not => ?_, fun who a x waits => ?_⟩
  · have stays := h.1 not
    exact (settled (by rw [stays]; exact not)).trans stays
  · obtain ⟨starts, goesOn, refuses⟩ := h.2 who a x waits
    refine ⟨fun b hand free => ?_, fun coming missing => ?_, fun gone => ⟨fun hand => ?_, fun none => ?_⟩⟩
    · exact (settled (by rw [starts b hand free]; nofun)).trans (starts b hand free)
    · have held := goesOn coming missing
      have coming' : MessageComing w p := by
        unfold MessageComing at *
        rw [held, rx]
        exact coming
      rw [((g.2 who a x (by rw [held]; exact waits)).2.1 coming' (by rw [held]; exact missing)), held]
    · exact (settled (by rw [(refuses gone).1 hand]; nofun)).trans ((refuses gone).1 hand)
    · obtain ⟨refused, y, mem, is⟩ := (refuses gone).2 none
      exact ⟨(settled (by rw [refused]; nofun)).trans refused, y, latches y mem, is⟩

/-- The decisions after an entry of the ring to ERROR with decisions of its own (R160). -/
theorem decideAll_rxEnterError {x : RxReason} (on : s.rx.state = .running) :
    let u := decideAll (rxEnterError x s)
    u.rx = { s.rx with state := .error, reason := x } ∧ (∃ y ∈ u.mgmt.latches, y.latch = .ringError) ∧
      ∀ p, DecidesAgain { s with rx := { s.rx with state := .error, reason := x } } u p := by
  obtain ⟨rx, ⟨y, mem, is⟩, decided, -⟩ := rxEnterError_running (x := x) on
  obtain ⟨frame, twice⟩ := decideAll_decides (rxEnterError x s)
  exact ⟨by rw [frame.eq]; exact rx, ⟨y, frame.latches y mem, is⟩,
    fun p => (decided p).again (twice p) (rx) frame.latches⟩

/-- A decision leaves a port WANTED that wants a buffer, since no message starts without one (R155). -/
theorem DecidesAgain.wanted (h : DecidesAgain s u p) (wants : (s.port p).tgt.atHand = .wanted) :
    (u.port p).tgt.atHand = .wanted := by
  have missing : ∀ b, (s.port p).tgt.atHand ≠ .present b := by
    rw [wants]
    nofun
  by_cases waits : ∃ who a x, (s.port p).tgt.transfer = .deciding who a x
  · obtain ⟨who, a, x, waits⟩ := waits
    obtain ⟨-, goesOn, refuses⟩ := h.2 who a x waits
    by_cases coming : MessageComing s p
    · rw [goesOn coming fun _ => missing]
      exact wants
    · rw [((refuses coming).2 missing).1]
      exact wants
  · rw [h.1 fun who a x e => waits ⟨who, a, x, e⟩]
    exact wants

/-! ### The start of a fetch (R162) -/

theorem AtHand.isWanted_iff (x : AtHand) : x.isWanted = true ↔ x = .wanted := by
  cases x <;> simp [AtHand.isWanted]
theorem AtHand.isFetching_iff (x : AtHand) : x.isFetching = true ↔ x = .fetching := by
  cases x <;> simp [AtHand.isFetching]

/-- What lets a fetch start, but for a port that wants a buffer (R162). -/
def RxRing.fetches (R : RxRing) : Prop :=
  R.state = .running ∧ R.fetch = none ∧ R.waiting = none ∧ R.posted ≠ R.taken ∧
    (R.posted - R.taken).toNat ≤ R.size.toNat

theorem startFetch_of_not (h : ¬ s.rx.fetches ∨ ∀ r, (s.port r).tgt.atHand ≠ .wanted) : startFetch s = s := by
  unfold startFetch
  split
  next offered =>
    rcases h with h | h
    · simp only [Bool.and_eq_true, decide_eq_true_eq, Option.isNone_iff_eq_none, ringOffers_iff] at offered
      obtain ⟨⟨⟨state, fetch⟩, waiting⟩, posted, room⟩ := offered
      exact absurd ⟨state, fetch, waiting, posted, room⟩ h
    · rw [List.find?_eq_none.mpr fun r _ => by rw [AtHand.isWanted_iff]; exact h r]
  next => rfl

theorem startFetch_serves {pre post : List PortId} (on : s.rx.fetches) (order : after s.rx.lastServed = pre ++ p :: post)
    (before : ∀ r ∈ pre, (s.port r).tgt.atHand ≠ .wanted) (wants : (s.port p).tgt.atHand = .wanted)
    (names : (s.port p).cfg.rxCq = some n) :
    startFetch s = (({ s with rx := { s.rx with fetch := some (p, n), lastServed := p } }.modTarget p fun T =>
      { T with atHand := .fetching }).issued .rxEntry
      (.read [(s.rx.base + BitVec.ofNat 64 (16 * (s.rx.taken.toNat % s.rx.size.toNat)), 16)]) false) := by
  obtain ⟨state, fetch, waiting, posted, room⟩ := on
  have offered : (s.rx.state = .running && s.rx.fetch.isNone && s.rx.waiting.isNone &&
      ringOffers s.rx.posted s.rx.taken s.rx.size) = true := by
    rw [(ringOffers_iff _ _ _).mpr ⟨posted, room⟩, state, fetch, waiting]
    rfl
  have first : (after s.rx.lastServed).find? (fun p => (s.port p).tgt.atHand.isWanted) = some p := by
    rw [order, List.find?_append, List.find?_eq_none.mpr fun r hr => by
      rw [AtHand.isWanted_iff]
      exact before r hr]
    simp [wants, AtHand.isWanted]
  have cfg : ((setAtHand p .fetching s).port p).cfg.rxCq.getD 0 = n := by
    rw [setAtHand, port_modTarget, if_pos rfl]
    dsimp only
    rw [names]
    rfl
  unfold startFetch
  rw [if_pos offered, first]
  dsimp only
  rw [cfg]
  rfl

/-! ### The end of a fetch (R163) -/

/-- The receive unit when an entry has been read and taken, its status word written (R163). -/
def State.entryTaken (s : State) : State :=
  writeRxStatus false { s with rx := { s.rx with fetch := none, taken := s.rx.taken + 1 } }

theorem entryTaken_running (h : s.rx.state = .running) : s.entryTaken =
    { s with rx := { s.rx with fetch := none, taken := s.rx.taken + 1 } }.issued .rxStatus
      (.write [(s.statusSlot 14, statusWord (s.rx.taken + 1) 1 s.rx.reason.code s.timebase)]) false := by
  have word : rxStatusWord { s.rx with fetch := none, taken := s.rx.taken + 1 } s.timebase =
      statusWord (s.rx.taken + 1) 1 s.rx.reason.code s.timebase := by
    unfold rxStatusWord
    dsimp only
    rw [h]
    rfl
  rw [← word]
  rfl

theorem fetchEnd_read (reads : s.rx.fetch = some (p, n)) :
    fetchEnd true data s = decideAll
      (if capOk (rd16 data 8) then deliver p (parseRxEntry data n) s.entryTaken
        else badCapacity p (parseRxEntry data n) (wantAgain p s.entryTaken)) := by
  unfold fetchEnd
  rw [reads]
  rfl

theorem fetchEnd_unread (reads : s.rx.fetch = some (p, n)) :
    fetchEnd false data s =
      decideAll (rxEnterError .entryRead (wantAgain p { s with rx := { s.rx with fetch := none } })) := by
  unfold fetchEnd
  rw [reads]
  rfl

theorem wantAgain_of (h : (s.port p).tgt.atHand = .fetching) : wantAgain p s = setAtHand p .wanted s :=
  if_pos ((AtHand.isFetching_iff _).mpr h)

theorem deliver_of {b : RxBuffer} (h : (s.port p).tgt.atHand = .fetching) : deliver p b s = setAtHand p (.present b) s :=
  if_pos ((AtHand.isFetching_iff _).mpr h)

/-- The record of an entry of bad capacity joins a list with room (R163). -/
theorem badCapacity_room {b : RxBuffer} (waiting : s.rx.waiting = none) (running : (s.cq b.cq).state = .running)
    (room : s.comp.holding.length < Config.holdingCapacity) :
    badCapacity p b s = { s with comp := { s.comp with
      holding := s.comp.holding ++ [⟨badCapacityRecord p b s.timebase, b.cq, false, none⟩] } } := by
  have taken : tryOffer (ReceiveRecord.entry ⟨badCapacityRecord p b s.timebase, b.cq⟩)
      { s with rx := { s.rx with waiting := some ⟨badCapacityRecord p b s.timebase, b.cq⟩ } } =
      some { s with
        rx := { s.rx with waiting := some ⟨badCapacityRecord p b s.timebase, b.cq⟩ },
        comp := { s.comp with
          holding := s.comp.holding ++ [ReceiveRecord.entry ⟨badCapacityRecord p b s.timebase, b.cq⟩] } } :=
    (if_pos running).trans (if_pos room)
  unfold badCapacity offerReceive
  dsimp only
  rw [taken]
  have rx : { s.rx with waiting := none } = s.rx := by rw [← waiting]
  exact congrArg (fun x => { s with rx := x, comp := { s.comp with
    holding := s.comp.holding ++ [ReceiveRecord.entry ⟨badCapacityRecord p b s.timebase, b.cq⟩] } }) rx

theorem rxStatusEnd_of {a : Access} {ok : Bool} (own : a.forCommand = false) :
    rxStatusEnd a ok s = if ok || a.further then s else rxEnterError .statusWrite s := by
  unfold rxStatusEnd statusWordEnded
  exact if_neg (by rw [own]; nofun)

theorem capOk_iff (cap : Half) : capOk cap = true ↔ 16 ≤ cap.toNat ∧ cap.toNat ≤ 4096 := by
  simp [capOk]

end Sys2Proof.Machine

namespace Sys2Proof.Proofs
open Sys2Proof.Machine

/-- Settles O57: the start and the end of a fetch by the state the unit finds, each end with a round of decisions. -/
theorem buffersAreFetched : Obligations.BuffersAreFetched := by
  unfold Obligations.BuffersAreFetched
  intro s out decides
  have decides_of (c : Instr) (v : State) (row : exec c s = .next (decideAll v)) (mgmt : v.mgmt = s.mgmt) :
      decides c v := by
    obtain ⟨frame, decided⟩ := decideAll_decides v
    refine ⟨_, row, ?_, decided⟩
    rw [← mgmt]
    exact frame.eq
  refine ⟨fun run => ?_, fun a rest on => ⟨?_, fun k fly own => ?_⟩⟩
  · have row : exec .receiveFetchStart s = .next (startFetch s) := congrArg _ (whenRunning_of_running run)
    rw [row]
    refine ⟨fun h => congrArg _ (startFetch_of_not ?_), fun p pre post n state fetch waiting posted room order before
      wants names => congrArg _ (startFetch_serves ⟨state, fetch, waiting, posted, room⟩ order before wants names)⟩
    rcases h with h | h | h | h | h
    · exact .inl fun on => h on.1
    · exact .inl fun on => h on.2.1
    · exact .inl fun on => h on.2.2.1
    · exact .inl fun on => on.2.2.2.1 h
    · exact .inr h
  · intro p n d fly reads fetching running cap taken word
    have row (ok : Bool) (he : EndsAs a ok 16) :
        exec (.receiveFetchEnd ok d) s = .next (fetchEnd ok d.toList (s.inFlight rest)) :=
      congrArg Host.Outcome.next (access_heeded out on (fun _ => rfl) fly he)
    have reads : (s.inFlight rest).rx.fetch = some (p, n) := reads
    refine ⟨fun ends => ⟨fun low high => ?_, fun bad cq room waiting => ?_⟩, ?_⟩
    · have delivered := deliver_of (b := parseRxEntry d.toList n)
        (show ((s.inFlight rest).entryTaken.port p).tgt.atHand = .fetching from fetching)
      refine decides_of _ _ ((row true ends).trans (congrArg _ ?_)) rfl
      rw [fetchEnd_read reads, if_pos ((capOk_iff _).mpr ⟨low, high⟩), delivered,
        entryTaken_running (s := s.inFlight rest) running]
      rfl
    · have wanting := wantAgain_of (show ((s.inFlight rest).entryTaken.port p).tgt.atHand = .fetching from fetching)
      have refused : ¬ capOk (rd16 d.toList 8) = true := by
        rw [capOk_iff]
        rintro ⟨low, high⟩
        rcases bad with h | h
        · exact absurd low (Nat.not_le.mpr h)
        · exact absurd high (Nat.not_le.mpr h)
      refine decides_of _ _ ((row true ends).trans (congrArg _ ?_)) rfl
      rw [fetchEnd_read reads, if_neg refused, wanting]
      rw [badCapacity_room (b := parseRxEntry d.toList n) (s := setAtHand p .wanted (s.inFlight rest).entryTaken) waiting cq room,
        entryTaken_running (s := s.inFlight rest) running]
      rfl
    · have ended : fetchEnd false d.toList (s.inFlight rest) = decideAll (rxEnterError .entryRead
          (setAtHand p .wanted { s.inFlight rest with rx := { s.rx with fetch := none } })) :=
        (fetchEnd_unread reads).trans (congrArg (fun t => decideAll (rxEnterError .entryRead t)) (wantAgain_of fetching))
      obtain ⟨rx, latch, decided⟩ := decideAll_rxEnterError (x := .entryRead)
        (s := setAtHand p .wanted { s.inFlight rest with rx := { s.rx with fetch := none } }) running
      refine ⟨_, (row false nofun).trans (congrArg _ ended), rx, ?_, latch, fun r => ?_⟩
      · refine (decided p).wanted ?_
        change ((s.modTarget p fun T => { T with atHand := .wanted }).port p).tgt.atHand = .wanted
        rw [port_modTarget, if_pos rfl]
      · rw [rx]
        exact (decided r).moved rfl rfl rfl rfl fun _ => id
  · have row (ok : Bool) (he : EndsAs a ok 0) :
        exec (.receiveStatusWordWriteEnd k ok) s = .next (rxStatusEnd a ok (s.inFlight rest)) :=
      congrArg Host.Outcome.next (access_heeded out on (fun _ => rfl) fly he)
    refine ⟨fun ends => ?_, fun quiet => ?_, fun running first => ?_⟩
    · rw [row true ends, rxStatusEnd_of own]
      rfl
    · rw [row false nofun, rxStatusEnd_of own]
      refine congrArg _ ?_
      rcases quiet with h | h
      · split
        · rfl
        · exact if_neg h
      · rw [h]
        rfl
    · obtain ⟨rx, latch, decided, accesses⟩ := rxEnterError_running (x := .statusWrite) (s := s.inFlight rest) running
      refine ⟨_, (row false nofun).trans (by rw [rxStatusEnd_of own, first]; rfl), rx, latch, accesses, fun r => ?_⟩
      rw [rx]
      exact decided r

end Sys2Proof.Proofs
end

section
/-! SUPPORT. The fetch unit: the turn (R30 to R32) and the end of an entry read (R32, R33, R37). From them the statements
FetchTurns and EntryReadsEnd. -/

namespace Sys2Proof.Machine

variable {s t u v : State} {p : PortId} {q : RqId} {k j : SlotId} {x : Txn}

/-! ### A turn -/

theorem eligible_iff : s.eligible q = true ↔ (s.rq q).state = .running ∧ (s.rq q).posted ≠ (s.rq q).taken ∧
    ((s.rq q).posted - (s.rq q).taken).toNat ≤ (s.rq q).size.toNat ∧ (s.rq q).hold = none ∧
    ∃ k, s.freeRequestSlot = some k := by
  unfold State.eligible
  simp only [Bool.and_eq_true, beq_iff_eq, ringOffers_iff, Option.isNone_iff_eq_none, Option.isSome_iff_exists,
    and_assoc]

/-- The read of the next entry of a queue, into the lowest free slot (R32). -/
def State.reads (s : State) (q : RqId) (count : Nat) (k : SlotId) : State :=
  { s with
    slots := upd s.slots k fun _ => .reserved,
    fetch := { s.fetch with turn := some { q := q, count := count, slot := k } } }.issued (.rqEntry q)
    (.read [((s.rq q).base + BitVec.ofNat 64 (64 * ((s.rq q).taken.toNat % (s.rq q).size.toNat)), 64)]) false

theorem txn_reads {n : Nat} (h : j ≠ k) : (s.reads q n k).txn j = s.txn j := by
  have slot : (s.reads q n k).slots.get j = s.slots.get j := (get_upd ..).trans (if_neg h.symm)
  unfold State.txn
  rw [slot]

theorem reads_slot {n : Nat} : (s.reads q n k).slots.get k = .reserved := (get_upd ..).trans (if_pos rfl)

theorem reads_accesses {n : Nat} : (s.reads q n k).accesses = s.accesses ++ [⟨.rqEntry q,
    .read [((s.rq q).base + BitVec.ofNat 64 (64 * ((s.rq q).taken.toNat % (s.rq q).size.toNat)), 64)], s.timebase,
    false, !s.link.busMaster, false⟩] := rfl

theorem issueEntryRead_of {n : Nat} (free : s.freeRequestSlot = some k) : issueEntryRead q n s = s.reads q n k := by
  unfold issueEntryRead
  rw [free]
  rfl

/-- No turn begins while one is in progress, the unit is stalled, or no queue is eligible (R30, R31). -/
theorem fetchTurn_rests (h : s.fetch.turn ≠ none ∨ s.fetch.stalled ≠ none ∨ ∀ r, s.eligible r ≠ true) :
    fetchTurn s = s := by
  unfold fetchTurn
  split
  next free =>
    simp only [Bool.and_eq_true, Option.isNone_iff_eq_none] at free
    rcases h with h | h | h
    · exact absurd free.1 h
    · exact absurd free.2 h
    · rw [List.find?_eq_none.mpr fun r _ => h r]
  next => rfl

theorem fetchTurn_serves {pre post : List RqId} (idle : s.fetch.turn = none) (moving : s.fetch.stalled = none)
    (order : after s.fetch.lastServed = pre ++ q :: post) (before : ∀ r ∈ pre, s.eligible r ≠ true)
    (on : s.eligible q = true) (free : s.freeRequestSlot = some k) :
    fetchTurn s = { s with fetch := { s.fetch with lastServed := q } }.reads q 0 k := by
  have first : (after s.fetch.lastServed).find? s.eligible = some q := by
    rw [order, List.find?_append, List.find?_eq_none.mpr before]
    simp [on]
  unfold fetchTurn
  rw [if_pos (by rw [idle, moving]; rfl), first]
  exact issueEntryRead_of free

/-! ### The transaction of an entry (R1, R11) -/

theorem portOf_eq {b : Byte} (h : b.toNat = p.val) : portOf b = p := by
  apply Fin.ext
  simp only [portOf, h]
  exact Nat.mod_eq_of_lt p.isLt

/-- The transaction of a well-formed entry, HELD until it is placed (R1). -/
def heldTxn (q : RqId) (cq : CqId) (deleting : Bool) (now : Word) (req : Request) (p : PortId) : Txn :=
  { req := req, origin := .rq q, port := p, cq := cq, state := .held,
    mark := if deleting then some .flushed else none, takenAt := now, arbUsed := 0, nackUsed := 0,
    attempts := 0, started := none, gapFrom := now, result := .ok, detail := 0, segIndex := 0,
    writeCount := 0, readCount := 0, endTime := now, trig := none }

theorem takenTxn_held {cq : CqId} {d : Bool} {now : Word} {req : Request} (fine : malformation req = none)
    (names : req.port.toNat = p.val) : takenTxn q cq d now req = heldTxn q cq d now req p := by
  unfold takenTxn
  dsimp only
  rw [fine, portOf_eq names]
  rfl

theorem takenTxn_malformed {cq : CqId} {b : Bool} {now : Word} {req : Request} {d : Byte} {i : Nat}
    (bad : malformation req = some (d, i)) : takenTxn q cq b now req =
      { heldTxn q cq b now req (portOf req.port) with
        state := .malformed, mark := none, result := .malformed, detail := d, segIndex := i } := by
  unfold takenTxn
  dsimp only
  rw [bad]
  rfl

/-! ### The entry is taken (R32) -/

/-- The state with the entry's counts risen and its transaction in the slot (R32). -/
def State.entryIn (s : State) (tn : Turn) (x : Txn) : State :=
  (s.modRq tn.q fun c => { c with taken := c.taken + 1, openCount := c.openCount + 1 }).setSlot tn.slot (.txn x)

/-- What goes on when an entry has been taken: the turn reads the next, or ends (R31). -/
def State.entryFollows (s : State) (tn : Turn) : State :=
  if s.link.ctrl = .running && s.fetch.stalled.isNone &&
      decide (tn.count + 1 < (s.rq tn.q).weight.toNat) && s.eligible tn.q then
    issueEntryRead tn.q (tn.count + 1) s
  else endTurn tn.q true s

/-- The transaction the entry of a turn makes. -/
def State.entryTxn (s : State) (tn : Turn) (e : List Byte) : Txn :=
  takenTxn tn.q (s.rq tn.q).cq ((s.rq tn.q).state == .deleting) s.timebase (parseRequest e)

theorem takeEntry_eq (tn : Turn) (e : List Byte) : takeEntry tn e s =
    (if (s.entryTxn tn e).state = .malformed then offerMalformed tn.slot (s.entryIn tn (s.entryTxn tn e))
      else placeOrHold tn.q tn.slot (s.entryTxn tn e) (s.entryIn tn (s.entryTxn tn e))).entryFollows tn := rfl

theorem rq_entryIn {tn : Turn} (r : RqId) : (s.entryIn tn x).rq r =
    if tn.q = r then { s.rq tn.q with taken := (s.rq tn.q).taken + 1, openCount := (s.rq tn.q).openCount + 1 }
    else s.rq r := rq_modRq ..

/-! ### Placing (R37) -/

/-- A transaction that is not urgent goes to the tail of its port's list (R45). -/
theorem insertTxn_tail (plain : x.req.urgent = false) : insertTxn k x s =
    (s.modPort x.port fun P => { P with list := P.list ++ [k] }).setSlot k (.txn { x with state := .waiting }) := by
  unfold insertTxn
  refine congrArg (fun t : State => t.setSlot k _) (modPort_congr _ _ _ ?_)
  rw [insertIndex_of_not_urgent s plain]
  unfold insertAt
  rw [List.take_length, List.drop_length]

theorem placeOrHold_places (fence : x.req.fence = false ∨ (s.rq q).openCount ≤ 1)
    (room : (s.port x.port).list.length < Config.listCapacity) : placeOrHold q k x s = insertTxn k x s := by
  refine if_pos ?_
  simp only [State.fenceOk, State.listFull, Bool.and_eq_true, Bool.or_eq_true, Bool.not_eq_true',
    decide_eq_true_eq, decide_eq_false_iff_not, Nat.not_le]
  exact ⟨fence, room⟩

theorem placeOrHold_holds (h : (x.req.fence = true ∧ 1 < (s.rq q).openCount) ∨
    Config.listCapacity ≤ (s.port x.port).list.length) :
    placeOrHold q k x s = s.modRq q fun c => { c with hold := some k } := by
  refine if_neg ?_
  simp only [State.fenceOk, State.listFull, Bool.and_eq_true, Bool.or_eq_true, Bool.not_eq_true',
    decide_eq_true_eq, decide_eq_false_iff_not, Nat.not_le]
  rintro ⟨fence, room⟩
  rcases h with ⟨fenced, opens⟩ | full
  · rcases fence with f | f
    · rw [f] at fenced
      cases fenced
    · exact absurd opens (Nat.not_lt.mpr f)
  · exact absurd room (Nat.not_lt.mpr full)

/-! ### The end of a turn (R28) -/

/-- The turn ends with a status word for the entries taken, the queue going on (R28). -/
theorem endTurn_writes (there : (s.rq q).state ≠ .absent)
    (stays : (s.rq q).state ≠ .deleting ∨ (s.rq q).openCount ≠ 0) :
    endTurn q true s = { s with fetch := { s.fetch with turn := none } }.issued (.rqStatus q)
      (.write [(s.statusSlot (2 + q.val), rqStatusWord (s.rq q) s.timebase)]) false := by
  have goesOn : deletionEnd q ({ s with fetch := { s.fetch with turn := none } }.issued (.rqStatus q)
      (.write [(s.statusSlot (2 + q.val), rqStatusWord (s.rq q) s.timebase)]) false) =
      { s with fetch := { s.fetch with turn := none } }.issued (.rqStatus q)
        (.write [(s.statusSlot (2 + q.val), rqStatusWord (s.rq q) s.timebase)]) false := by
    unfold deletionEnd
    refine if_neg ?_
    simp only [Bool.and_eq_true, decide_eq_true_eq]
    rintro ⟨⟨deleting, empty⟩, -⟩
    rcases stays with h | h
    · exact h deleting
    · exact h empty
  rw [← goesOn]
  unfold endTurn
  dsimp only
  rw [if_pos (by simpa using there)]
  rfl

/-- A turn without an entry taken ends quietly (R28). -/
theorem endTurn_quiet (stays : (s.rq q).state ≠ .deleting ∨ (s.rq q).openCount ≠ 0) :
    endTurn q false s = { s with fetch := { s.fetch with turn := none } } := by
  unfold endTurn
  dsimp only
  rw [if_neg (by simp)]
  unfold deletionEnd
  refine if_neg ?_
  simp only [Bool.and_eq_true, decide_eq_true_eq]
  rintro ⟨⟨deleting, empty⟩, -⟩
  rcases stays with h | h
  · exact h deleting
  · exact h empty

/-- The turn ends when the weight allows no further entry (R31). -/
theorem entryFollows_ends {tn : Turn} (h : (s.rq tn.q).weight.toNat ≤ tn.count + 1 ∨ (s.rq tn.q).state ≠ .running) :
    s.entryFollows tn = endTurn tn.q true s := by
  refine if_neg ?_
  simp only [Bool.and_eq_true, decide_eq_true_eq, eligible_iff]
  rintro ⟨⟨-, more⟩, running, -⟩
  rcases h with h | h
  · exact absurd more (Nat.not_lt.mpr h)
  · exact h running

theorem entryFollows_reads {tn : Turn} (run : s.link.ctrl = .running) (moving : s.fetch.stalled = none)
    (more : tn.count + 1 < (s.rq tn.q).weight.toNat) (on : s.eligible tn.q = true) (free : s.freeRequestSlot = some k) :
    s.entryFollows tn = s.reads tn.q (tn.count + 1) k := by
  rw [← issueEntryRead_of free]
  refine if_pos ?_
  simp [run, moving, more, on]

/-! ### Where an entry's transaction goes (R32, R37) -/

/-- The transaction of a well-formed entry, by the queue's state. -/
def State.heldEntry (s : State) (tn : Turn) (e : List Byte) (p : PortId) : Txn :=
  heldTxn tn.q (s.rq tn.q).cq ((s.rq tn.q).state == .deleting) s.timebase (parseRequest e) p

/-- The entry placed in its port's list, and the entry held. -/
def State.entryPlaced (s : State) (tn : Turn) (p : PortId) (x : Txn) : State :=
  ((s.entryIn tn x).modPort p fun P => { P with list := P.list ++ [tn.slot] }).setSlot tn.slot
    (.txn { x with state := .waiting })
def State.entryHeld (s : State) (tn : Turn) (x : Txn) : State :=
  (s.entryIn tn x).modRq tn.q fun c => { c with hold := some tn.slot }

theorem takeEntry_places {tn : Turn} {e : List Byte} (fine : malformation (parseRequest e) = none)
    (plain : (parseRequest e).urgent = false) (names : (parseRequest e).port.toNat = p.val)
    (fence : (parseRequest e).fence = false ∨ (s.rq tn.q).openCount = 0) (room : (s.port p).list.length < 32) :
    takeEntry tn e s = (s.entryPlaced tn p (s.heldEntry tn e p)).entryFollows tn := by
  have is : s.entryTxn tn e = s.heldEntry tn e p := takenTxn_held fine names
  have counts : ((s.entryIn tn (s.heldEntry tn e p)).rq tn.q).openCount = (s.rq tn.q).openCount + 1 := by
    rw [rq_entryIn, if_pos rfl]
  rw [takeEntry_eq, is, if_neg (show ¬ (s.heldEntry tn e p).state = .malformed from nofun)]
  have placed : placeOrHold tn.q tn.slot (s.heldEntry tn e p) (s.entryIn tn (s.heldEntry tn e p)) =
      insertTxn tn.slot (s.heldEntry tn e p) (s.entryIn tn (s.heldEntry tn e p)) :=
    placeOrHold_places (fence.imp id fun none => by rw [counts, none]) room
  rw [placed, insertTxn_tail plain]
  rfl

theorem takeEntry_holds {tn : Turn} {e : List Byte} (fine : malformation (parseRequest e) = none)
    (names : (parseRequest e).port.toNat = p.val)
    (held : (parseRequest e).fence = true ∧ 1 ≤ (s.rq tn.q).openCount ∨ 32 ≤ (s.port p).list.length) :
    takeEntry tn e s = (s.entryHeld tn (s.heldEntry tn e p)).entryFollows tn := by
  have is : s.entryTxn tn e = s.heldEntry tn e p := takenTxn_held fine names
  have counts : ((s.entryIn tn (s.heldEntry tn e p)).rq tn.q).openCount = (s.rq tn.q).openCount + 1 := by
    rw [rq_entryIn, if_pos rfl]
  rw [takeEntry_eq, is, if_neg (show ¬ (s.heldEntry tn e p).state = .malformed from nofun), placeOrHold_holds]
  · rfl
  · refine held.imp (fun h => ⟨h.1, ?_⟩) id
    rw [counts]
    exact Nat.lt_succ_of_le h.2

/-- The malformed transaction of an entry (R10, R11). -/
def State.badEntry (s : State) (tn : Turn) (e : List Byte) (d : Byte) (i : Nat) : Txn :=
  { s.heldEntry tn e (portOf (parseRequest e).port) with
    state := .malformed, mark := none, result := .malformed, detail := d, segIndex := i }

theorem malformedAccepted_of (held : s.txn k = some x) : malformedAccepted k s =
    { s.setSlot k (.txn { x with state := .recorded }) with fetch := { s.fetch with stalled := none } } := by
  unfold malformedAccepted
  rw [modTxn_of_txn held]

/-- The record of a malformed entry joins a list with room (R11). -/
theorem offerMalformed_room (held : s.txn k = some x) (running : (s.cq x.cq).state = .running)
    (room : s.comp.holding.length < Config.holdingCapacity) :
    offerMalformed k s = { s.setSlot k (.txn { x with state := .recorded }) with
      comp := { s.comp with holding := s.comp.holding ++ [malformedEntry k x] },
      fetch := { s.fetch with stalled := none } } := by
  have taken : tryOffer (malformedEntry k x) s = some { s with
      comp := { s.comp with holding := s.comp.holding ++ [malformedEntry k x] } } :=
    (if_pos running).trans (if_pos room)
  unfold offerMalformed
  rw [held]
  dsimp only
  rw [taken]
  exact malformedAccepted_of held

theorem takeEntry_malformed {tn : Turn} {e : List Byte} {d : Byte} {i : Nat}
    (bad : malformation (parseRequest e) = some (d, i)) (running : (s.cq (s.rq tn.q).cq).state = .running)
    (room : s.comp.holding.length < Config.holdingCapacity) :
    takeEntry tn e s = { (s.entryIn tn (s.badEntry tn e d i)).setSlot tn.slot
        (.txn { s.badEntry tn e d i with state := .recorded }) with
      comp := { s.comp with holding := s.comp.holding ++ [malformedEntry tn.slot (s.badEntry tn e d i)] },
      fetch := { s.fetch with stalled := none } }.entryFollows tn := by
  have is : s.entryTxn tn e = s.badEntry tn e d i := takenTxn_malformed bad
  rw [takeEntry_eq, is, if_pos (show (s.badEntry tn e d i).state = .malformed from rfl)]
  exact congrArg (State.entryFollows · tn)
    (offerMalformed_room (s := s.entryIn tn (s.badEntry tn e d i)) ((txn_setSlot ..).trans (if_pos rfl)) running room)

/-! ### The end of an entry read, by what it brings (R32, R33) -/

theorem entryIn_txn {tn : Turn} : (s.entryIn tn x).txn tn.slot = some x := (txn_setSlot ..).trans (if_pos rfl)

theorem rq_entryPlaced {tn : Turn} (r : RqId) : (s.entryPlaced tn p x).rq r =
    if tn.q = r then { s.rq tn.q with taken := (s.rq tn.q).taken + 1, openCount := (s.rq tn.q).openCount + 1 }
    else s.rq r := rq_entryIn (x := x) r

theorem port_entryPlaced {tn : Turn} (r : PortId) : (s.entryPlaced tn p x).port r =
    if p = r then { s.port p with list := (s.port p).list ++ [tn.slot] } else s.port r := port_modPort ..

theorem txn_entryPlaced {tn : Turn} : (s.entryPlaced tn p x).txn tn.slot = some { x with state := .waiting } :=
  (txn_setSlot ..).trans (if_pos rfl)

theorem slot_entryPlaced {tn : Turn} (h : j ≠ tn.slot) : (s.entryPlaced tn p x).slots.get j = s.slots.get j := by
  unfold State.entryPlaced State.entryIn
  rw [slot_setSlot, if_neg h.symm]
  exact (slot_setSlot ..).trans (if_neg h.symm)

theorem rq_entryHeld {tn : Turn} (r : RqId) : (s.entryHeld tn x).rq r =
    if tn.q = r then { s.rq tn.q with
      taken := (s.rq tn.q).taken + 1, openCount := (s.rq tn.q).openCount + 1, hold := some tn.slot }
    else s.rq r := by
  unfold State.entryHeld
  rw [rq_modRq, rq_entryIn, rq_entryIn, if_pos rfl]
  by_cases h : tn.q = r
  · rw [if_pos h, if_pos h]
  · rw [if_neg h, if_neg h, if_neg h]

theorem txn_entryHeld {tn : Turn} : (s.entryHeld tn x).txn tn.slot = some x := entryIn_txn

theorem slot_entryHeld {tn : Turn} (h : j ≠ tn.slot) : (s.entryHeld tn x).slots.get j = s.slots.get j :=
  (slot_setSlot ..).trans (if_neg h.symm)

/-- The lowest free request slot depends on which slots are free alone. -/
theorem freeRequestSlot_congr (h : ∀ k, (t.slots.get k).isFree = (s.slots.get k).isFree) :
    t.freeRequestSlot = s.freeRequestSlot := by
  unfold State.freeRequestSlot
  exact congrArg (fun f => requestSlots.find? f) (funext h)

theorem freeRequestSlot_free (h : s.freeRequestSlot = some k) : s.slots.get k = .free := by
  have found := List.find?_some h
  cases e : s.slots.get k
  case free => rfl
  all_goals
    rw [e] at found
    cases found

theorem freeRequestSlot_entryPlaced {tn : Turn} (busy : s.slots.get tn.slot ≠ .free) :
    (s.entryPlaced tn p x).freeRequestSlot = s.freeRequestSlot := by
  refine freeRequestSlot_congr fun k => ?_
  by_cases h : k = tn.slot
  · subst h
    have after : (s.entryPlaced tn p x).slots.get tn.slot = .txn { x with state := .waiting } :=
      (slot_setSlot ..).trans (if_pos rfl)
    rw [after]
    cases e : s.slots.get tn.slot
    case free => exact absurd e busy
    all_goals rfl
  · rw [slot_entryPlaced h]

/-- A read that fails while the queue goes on takes it to ERROR (R33). -/
theorem entryReadFails_running {tn : Turn} (on : (s.rq tn.q).state = .running) : entryReadFails tn s =
    endTurn tn.q false (rqEnterError tn.q .entryRead (s.setSlot tn.slot .free)) := if_pos on

theorem entryReadFails_other {tn : Turn} (off : (s.rq tn.q).state ≠ .running) : entryReadFails tn s =
    endTurn tn.q (tn.count != 0) (s.setSlot tn.slot .free) := if_neg off

theorem rqEntryEnd_takes {tn : Turn} {e : List Byte} (turn : s.fetch.turn = some tn) :
    rqEntryEnd true e s = takeEntry tn e s := by
  unfold rqEntryEnd
  rw [turn]
  rfl

theorem rqEntryEnd_fails {tn : Turn} {e : List Byte} (turn : s.fetch.turn = some tn) :
    rqEntryEnd false e s = entryReadFails tn s := by
  unfold rqEntryEnd
  rw [turn]
  rfl

/-- The state in which the turn has ended with a status word of the queue's state (R28). -/
def State.turnEnded (s : State) (q : RqId) (state : Byte) : State :=
  { s with fetch := { s.fetch with turn := none } }.issued (.rqStatus q)
    (.write [(s.statusSlot (2 + q.val), statusWord (s.rq q).taken state (s.rq q).reason.code s.timebase)]) false

theorem endTurn_turnEnded {x : RqState} (is : (s.rq q).state = x) (there : x ≠ .absent)
    (stays : x ≠ .deleting ∨ (s.rq q).openCount ≠ 0) : endTurn q true s = s.turnEnded q x.code := by
  subst is
  exact endTurn_writes there stays

/-- A well-formed entry that ends the turn, placed or held. -/
theorem rqEntryEnd_places {tn : Turn} {e : List Byte} {x : RqState} (turn : s.fetch.turn = some tn)
    (is : (s.rq tn.q).state = x) (there : x ≠ .absent) (ends : (s.rq tn.q).weight.toNat ≤ tn.count + 1 ∨ x ≠ .running)
    (fine : malformation (parseRequest e) = none)
    (plain : (parseRequest e).urgent = false) (names : (parseRequest e).port.toNat = p.val)
    (fence : (parseRequest e).fence = false ∨ (s.rq tn.q).openCount = 0) (room : (s.port p).list.length < 32) :
    rqEntryEnd true e s = (s.entryPlaced tn p (s.heldEntry tn e p)).turnEnded tn.q x.code := by
  have rq := (rq_entryPlaced (s := s) (p := p) (x := s.heldEntry tn e p) (tn := tn) tn.q).trans (if_pos rfl)
  rw [rqEntryEnd_takes turn, takeEntry_places fine plain names fence room, entryFollows_ends (by rw [rq, is]; exact ends),
    endTurn_turnEnded (by rw [rq]; exact is) there (.inr (by rw [rq]; exact Nat.succ_ne_zero _))]

theorem rqEntryEnd_holds {tn : Turn} {e : List Byte} {x : RqState} (turn : s.fetch.turn = some tn)
    (is : (s.rq tn.q).state = x) (there : x ≠ .absent) (ends : (s.rq tn.q).weight.toNat ≤ tn.count + 1 ∨ x ≠ .running)
    (fine : malformation (parseRequest e) = none) (names : (parseRequest e).port.toNat = p.val)
    (held : (parseRequest e).fence = true ∧ 1 ≤ (s.rq tn.q).openCount ∨ 32 ≤ (s.port p).list.length) :
    rqEntryEnd true e s = (s.entryHeld tn (s.heldEntry tn e p)).turnEnded tn.q x.code := by
  have rq := (rq_entryHeld (s := s) (x := s.heldEntry tn e p) (tn := tn) tn.q).trans (if_pos rfl)
  rw [rqEntryEnd_takes turn, takeEntry_holds fine names held, entryFollows_ends (by rw [rq, is]; exact ends),
    endTurn_turnEnded (by rw [rq]; exact is) there (.inr (by rw [rq]; exact Nat.succ_ne_zero _))]

/-- A malformed entry with its record made. -/
def State.entryRecorded (s : State) (tn : Turn) (x : Txn) : State :=
  { (s.entryIn tn x).setSlot tn.slot (.txn { x with state := .recorded }) with
    comp := { s.comp with holding := s.comp.holding ++ [malformedEntry tn.slot x] },
    fetch := { s.fetch with stalled := none } }

theorem rqEntryEnd_malformed {tn : Turn} {e : List Byte} {d : Byte} {i : Nat} (turn : s.fetch.turn = some tn)
    (is : (s.rq tn.q).state = .running) (ends : (s.rq tn.q).weight.toNat ≤ tn.count + 1)
    (bad : malformation (parseRequest e) = some (d, i)) (running : (s.cq (s.rq tn.q).cq).state = .running)
    (room : s.comp.holding.length < Config.holdingCapacity) :
    rqEntryEnd true e s = (s.entryRecorded tn (s.badEntry tn e d i)).turnEnded tn.q 1 := by
  have rq : (s.entryRecorded tn (s.badEntry tn e d i)).rq tn.q = { s.rq tn.q with
      taken := (s.rq tn.q).taken + 1, openCount := (s.rq tn.q).openCount + 1 } :=
    (rq_entryIn (x := s.badEntry tn e d i) tn.q).trans (if_pos rfl)
  have taken : takeEntry tn e s = (s.entryRecorded tn (s.badEntry tn e d i)).entryFollows tn :=
    takeEntry_malformed bad running room
  rw [rqEntryEnd_takes turn, taken, entryFollows_ends (.inl (by rw [rq]; exact ends)),
    endTurn_turnEnded (x := .running) (by rw [rq]; exact is) nofun (.inl nofun)]
  rfl

/-- A read that fails while the queue goes on takes the queue to ERROR, and the turn ends (R33). -/
theorem rqEntryEnd_unread {tn : Turn} {e : List Byte} (turn : s.fetch.turn = some tn)
    (on : (s.rq tn.q).state = .running) :
    rqEntryEnd false e s = { rqEnterError tn.q .entryRead (s.setSlot tn.slot .free) with
      fetch := { (rqEnterError tn.q .entryRead (s.setSlot tn.slot .free)).fetch with turn := none } } := by
  obtain ⟨own, -⟩ := rqEnterError_spec (s := s.setSlot tn.slot .free) (q := tn.q) (x := .entryRead) on
  rw [rqEntryEnd_fails turn, entryReadFails_running on]
  exact endTurn_quiet (.inl (by rw [own]; nofun))

theorem heldEntry_mark_none {tn : Turn} {e : List Byte} (on : (s.rq tn.q).state = .running) :
    (s.heldEntry tn e p).mark = none := by
  simp [State.heldEntry, heldTxn, on]

theorem heldEntry_mark_flushed {tn : Turn} {e : List Byte} (deleting : (s.rq tn.q).state = .deleting) :
    (s.heldEntry tn e p).mark = some .flushed := by
  simp [State.heldEntry, heldTxn, deleting]

/-- The status word of a turn's end is written after what was in flight. -/
theorem turnEnded_accesses {b : Byte} : (s.turnEnded q b).accesses = s.accesses ++ [⟨.rqStatus q,
    .write [(s.statusSlot (2 + q.val), statusWord (s.rq q).taken b (s.rq q).reason.code s.timebase)], s.timebase,
    false, !s.link.busMaster, false⟩] := rfl

theorem rqStatusEnd_of {a : Access} {ok : Bool} (own : a.forCommand = false) :
    rqStatusEnd q a ok s = if ok || a.further then s else rqEnterError q .statusWrite s := by
  unfold rqStatusEnd statusWordEnded
  exact if_neg (by rw [own]; nofun)

end Sys2Proof.Machine

namespace Sys2Proof.Proofs
open Sys2Proof.Machine

/-- Settles O39: the turn goes to the first eligible queue after the one last served. -/
theorem fetchTurns : Obligations.FetchTurns := by
  unfold Obligations.FetchTurns
  intro s run
  have row : exec .fetchTurn s = .next (fetchTurn s) := congrArg _ (whenRunning_of_running run)
  have not_eligible (r : RqId) (h : (s.rq r).state ≠ .running ∨ (s.rq r).posted = (s.rq r).taken ∨
      (s.rq r).hold ≠ none) : s.eligible r ≠ true := by
    rw [ne_eq, eligible_iff]
    rintro ⟨state, posted, -, hold, -⟩
    rcases h with h | h | h
    · exact h state
    · exact posted h
    · exact h hold
  rw [row]
  refine ⟨fun h => congrArg _ (fetchTurn_rests ?_), fun q k pre post idle moving order before state posted room hold
    free => congrArg _ (fetchTurn_serves idle moving order (fun r hr => not_eligible r (before r hr))
      (eligible_iff.mpr ⟨state, posted, room, hold, k, free⟩) free)⟩
  rcases h with h | h | h | h
  · exact .inl h
  · exact .inr (.inl h)
  · exact .inr (.inr fun r => not_eligible r (h r))
  · refine .inr (.inr fun r => ?_)
    rw [ne_eq, eligible_iff]
    rintro ⟨-, -, -, -, k, free⟩
    rw [h] at free
    cases free

/-- Settles O40: where the entry's transaction goes (`takeEntry_places`, `takeEntry_holds`, `takeEntry_malformed`), and
then whether the turn reads on or ends. -/
theorem entryReadsEnd : Obligations.EntryReadsEnd := by
  unfold Obligations.EntryReadsEnd
  intro s a rest tn e live
  have row (ok : Bool) (fly : InFlight (fun k => match k with | .rqEntry _ => true | _ => false) 0 s a rest)
      (he : EndsAs a ok 64) :
      exec (.rqEntryReadEnd ok e) s = .next (rqEntryEnd ok e.toList (s.inFlight rest)) :=
    congrArg Host.Outcome.next (access_heeded live.1 live.not_stopping (fun _ => rfl) fly he)
  refine ⟨fun fly turn on => ⟨fun ends weight => ⟨fun fine plain p names => ?_, fun d i bad cq room => ?_⟩, ?_⟩,
    fun fly turn p fine plain names fence room ends => ⟨fun k run on hold moving more posted size busy free => ?_,
      fun deleting => ?_⟩, fun fly turn deleting opens => ?_, fun q k fly own => ⟨fun ends => ?_, fun on first => ?_,
      fun quiet => ?_⟩⟩
  · have mark := heldEntry_mark_none (s := s.inFlight rest) (p := p) (e := e.toList) on
    by_cases placed : ((parseRequest e.toList).fence = false ∨ (s.rq tn.q).openCount = 0) ∧ (s.port p).list.length < 32
    · have taken := rqEntryEnd_places (s := s.inFlight rest) turn on nofun (.inl weight) fine plain names placed.1 placed.2
      have rq := rq_entryPlaced (s := s.inFlight rest) (p := p) (tn := tn) (x := (s.inFlight rest).heldEntry tn e.toList p)
      have port := port_entryPlaced (s := s.inFlight rest) (p := p) (tn := tn)
        (x := (s.inFlight rest).heldEntry tn e.toList p)
      have own := (rq tn.q).trans (if_pos rfl)
      refine ⟨_, _, (row true fly ends).trans (congrArg _ taken), txn_entryPlaced, rfl, rfl, rfl, rfl, mark, rfl, rfl,
        (congrArg RqCtx.taken own :), (congrArg RqCtx.openCount own :), rfl, ?_, fun _ _ => ⟨rfl, ?_, ?_⟩,
        fun h => ?_, fun r hr => (rq r).trans (if_neg hr.symm), fun r hr => (port r).trans (if_neg hr.symm),
        fun j hj => slot_entryPlaced hj⟩
      · rw [turnEnded_accesses, own]
        rfl
      · exact (congrArg Port.list ((port p).trans (if_pos rfl)) :)
      · exact (congrArg RqCtx.hold own :)
      · rcases h with ⟨fenced, opens⟩ | full
        · rcases placed.1 with f | f
          · rw [fenced] at f
            cases f
          · omega
        · omega
    · have back : (parseRequest e.toList).fence = true ∧ 1 ≤ (s.rq tn.q).openCount ∨ 32 ≤ (s.port p).list.length := by
        by_cases full : 32 ≤ (s.port p).list.length
        · exact .inr full
        · refine .inl ?_
          obtain ⟨fenced, opens⟩ := not_or.mp fun fence => placed ⟨fence, Nat.lt_of_not_le full⟩
          exact ⟨by simpa using fenced, Nat.one_le_iff_ne_zero.mpr opens⟩
      have taken := rqEntryEnd_holds (s := s.inFlight rest) turn on nofun (.inl weight) fine names back
      have rq := rq_entryHeld (s := s.inFlight rest) (tn := tn) (x := (s.inFlight rest).heldEntry tn e.toList p)
      have own := (rq tn.q).trans (if_pos rfl)
      refine ⟨_, _, (row true fly ends).trans (congrArg _ taken), txn_entryHeld, rfl, rfl, rfl, rfl, mark, rfl, rfl,
        (congrArg RqCtx.taken own :), (congrArg RqCtx.openCount own :), rfl, ?_,
        fun fence room => absurd ⟨fence, room⟩ placed, fun _ => ⟨rfl, rfl, (congrArg RqCtx.hold own :)⟩,
        fun r hr => (rq r).trans (if_neg hr.symm), fun r hr => rfl, fun j hj => slot_entryHeld hj⟩
      rw [turnEnded_accesses, own]
      rfl
  · have taken := rqEntryEnd_malformed (s := s.inFlight rest) turn on weight bad cq room
    have own : ((s.inFlight rest).entryRecorded tn ((s.inFlight rest).badEntry tn e.toList d i)).rq tn.q =
        { s.rq tn.q with taken := (s.rq tn.q).taken + 1, openCount := (s.rq tn.q).openCount + 1 } :=
      (rq_entryIn (s := s.inFlight rest) (x := (s.inFlight rest).badEntry tn e.toList d i) tn.q).trans (if_pos rfl)
    exact ⟨_, _, (row true fly ends).trans (congrArg _ taken), (txn_setSlot ..).trans (if_pos rfl), rfl, rfl, rfl, rfl,
      rfl, rfl, rfl, (congrArg RqCtx.taken own :), rfl, rfl⟩
  · obtain ⟨own, other, latch, eq⟩ := rqEnterError_spec (s := (s.inFlight rest).setSlot tn.slot .free) (q := tn.q)
      (x := .entryRead) on
    have failed := rqEntryEnd_unread (s := s.inFlight rest) (e := e.toList) turn on
    refine ⟨_, (row false fly nofun).trans (congrArg _ failed), ?_, ?_, ?_, ?_, rfl, latch⟩
    · rw [eq]
      exact (slot_setSlot ..).trans (if_pos rfl)
    · exact congrArg RqCtx.state own
    · exact congrArg RqCtx.reason own
    · exact (congrArg RqCtx.taken own :)
  · have placed := takeEntry_places (s := s.inFlight rest) fine plain names fence room
    have rq := rq_entryPlaced (s := s.inFlight rest) (p := p) (tn := tn) (x := (s.inFlight rest).heldEntry tn e.toList p)
    have own := (rq tn.q).trans (if_pos rfl)
    have lowest := (freeRequestSlot_entryPlaced (s := s.inFlight rest) (p := p) (tn := tn)
      (x := (s.inFlight rest).heldEntry tn e.toList p) busy).trans free
    have next := entryFollows_reads (tn := tn)
      (s := (s.inFlight rest).entryPlaced tn p ((s.inFlight rest).heldEntry tn e.toList p)) run moving
      (by rw [own]; exact more)
      (eligible_iff.mpr (by rw [own]; exact ⟨on, posted, size, hold, k, lowest⟩)) lowest
    have apart : k ≠ tn.slot := fun same => busy (same ▸ freeRequestSlot_free free)
    have taken := (rqEntryEnd_takes (s := s.inFlight rest) (e := e.toList) turn).trans (placed.trans next)
    refine ⟨_, _, (row true fly ends).trans (congrArg _ taken), (txn_reads apart.symm).trans txn_entryPlaced, rfl, rfl,
      heldEntry_mark_none (s := s.inFlight rest) (p := p) (e := e.toList) on, ?_, (congrArg RqCtx.taken own :),
        (congrArg RqCtx.openCount own :),
      reads_slot, rfl, ?_⟩
    · exact (congrArg Port.list ((port_entryPlaced p).trans (if_pos rfl)) :)
    · rw [reads_accesses, own]
      rfl
  · have taken := rqEntryEnd_places (s := s.inFlight rest) turn deleting nofun (.inr nofun) fine plain names fence room
    have rq := rq_entryPlaced (s := s.inFlight rest) (p := p) (tn := tn) (x := (s.inFlight rest).heldEntry tn e.toList p)
    have own := (rq tn.q).trans (if_pos rfl)
    refine ⟨_, _, (row true fly ends).trans (congrArg _ taken), txn_entryPlaced, rfl, rfl,
      heldEntry_mark_flushed (s := s.inFlight rest) (p := p) (e := e.toList) deleting, ?_, own, rfl, ?_⟩
    · exact (congrArg Port.list ((port_entryPlaced p).trans (if_pos rfl)) :)
    · rw [turnEnded_accesses, own]
      rfl
  · intro ended
    have off : ((s.inFlight rest).rq tn.q).state ≠ .running := by
      rw [show ((s.inFlight rest).rq tn.q).state = .deleting from deleting]
      nofun
    have failed := (rqEntryEnd_fails (s := s.inFlight rest) (e := e.toList) turn).trans (entryReadFails_other off)
    refine (row false fly nofun).trans (congrArg _ (failed.trans ?_))
    by_cases none : tn.count = 0
    · rw [if_pos none, none]
      exact endTurn_quiet (.inr opens)
    · rw [if_neg none, show (tn.count != 0) = true from bne_iff_ne.mpr none]
      exact endTurn_turnEnded (x := .deleting) deleting nofun (.inr opens)
  · have row (ok : Bool) (he : EndsAs a ok 0) :
        exec (.rqStatusWordWriteEnd q k ok) s = .next (rqStatusEnd q a ok (s.inFlight rest)) :=
      congrArg Host.Outcome.next (access_heeded live.1 live.not_stopping (fun _ => rfl) fly he)
    rw [row true ends, rqStatusEnd_of own]
    rfl
  · have row (ok : Bool) (he : EndsAs a ok 0) :
        exec (.rqStatusWordWriteEnd q k ok) s = .next (rqStatusEnd q a ok (s.inFlight rest)) :=
      congrArg Host.Outcome.next (access_heeded live.1 live.not_stopping (fun _ => rfl) fly he)
    obtain ⟨ctx, other, latch, eq⟩ := rqEnterError_spec (s := s.inFlight rest) (q := q) (x := .statusWrite) on
    refine ⟨_, (row false nofun).trans (by rw [rqStatusEnd_of own, first]; rfl), ctx, latch, ?_⟩
    rw [eq, ctx]
    rfl
  · have row (ok : Bool) (he : EndsAs a ok 0) :
        exec (.rqStatusWordWriteEnd q k ok) s = .next (rqStatusEnd q a ok (s.inFlight rest)) :=
      congrArg Host.Outcome.next (access_heeded live.1 live.not_stopping (fun _ => rfl) fly he)
    rw [row false nofun, rqStatusEnd_of own]
    refine congrArg _ ?_
    rcases quiet with h | h
    · split
      · rfl
      · exact rqEnterError_left h
    · rw [h]
      rfl

end Sys2Proof.Proofs
end

section
/-! SUPPORT. The completion writer (R114, R115) and the coalescing of its announcements (R117). From them the statements
RecordsAreAnnounced and RecordsAreWritten. -/

namespace Sys2Proof.Machine

variable {s t u v : State} {p : PortId} {q : RqId} {k j : SlotId} {n : CqId} {e : HoldEntry} {x : Txn}

/-! ### Announcement (R114, R117) -/

/-- A cause raised sets the queue's bit, and starts its coalescing again (R117). -/
theorem raiseCq_eq : (raiseCq n s).ints.isr = s.ints.isr ||| BitVec.twoPow 8 (1 + n.val) ∧
    (raiseCq n s).ints.imr = s.ints.imr ∧
    raiseCq n s = { s.modCq n fun c => { c with unannounced := 0, timer := none } with ints := (raiseCq n s).ints } :=
  ⟨rfl, rfl, rfl⟩

/-- The queue's count and timer when a record has been announced (R117). -/
def CqCtx.counted (x : Word) (c : CqCtx) : CqCtx :=
  { c with
    unannounced := c.unannounced + 1,
    timer := if c.unannounced = 0 then some x else c.timer }

theorem announce_quiet {notify : Bool} (plain : notify = false) (few : (s.cq n).unannounced + 1 < (s.cq n).k.toNat)
    (timed : (s.cq n).l ≠ 0) : announce n notify s = s.modCq n (CqCtx.counted s.timebase) := by
  have own : (s.modCq n (CqCtx.counted s.timebase)).cq n = (s.cq n).counted s.timebase :=
    (cq_modCq ..).trans (if_pos rfl)
  have shape : announce n notify s = (fun t => if notify || decide ((t.cq n).k.toNat ≤ (t.cq n).unannounced) ||
    (t.cq n).l == 0 then raiseCq n t else t) (s.modCq n (CqCtx.counted s.timebase)) := rfl
  rw [shape]
  refine if_neg fun h => ?_
  rw [own, plain] at h
  rcases (Bool.or_eq_true _ _).mp h with h | h
  · rcases (Bool.or_eq_true _ _).mp h with h | h
    · cases h
    · exact absurd (of_decide_eq_true h) (Nat.not_le.mpr few)
  · exact timed (eq_of_beq h)

/-- An announcement that NOTIFY, the count or L 0 makes a cause at once. -/
theorem announce_raises {notify : Bool}
    (h : notify = true ∨ (s.cq n).k.toNat ≤ (s.cq n).unannounced + 1 ∨ (s.cq n).l = 0) :
    announce n notify s = raiseCq n (s.modCq n (CqCtx.counted s.timebase)) := by
  have own : (s.modCq n (CqCtx.counted s.timebase)).cq n = (s.cq n).counted s.timebase :=
    (cq_modCq ..).trans (if_pos rfl)
  have shape : announce n notify s = (fun t => if notify || decide ((t.cq n).k.toNat ≤ (t.cq n).unannounced) ||
    (t.cq n).l == 0 then raiseCq n t else t) (s.modCq n (CqCtx.counted s.timebase)) := rfl
  rw [shape]
  refine if_pos ?_
  rw [own]
  rw [Bool.or_eq_true, Bool.or_eq_true]
  rcases h with h | h | h
  · exact .inl (.inl h)
  · exact .inl (.inr (decide_eq_true h))
  · exact .inr (beq_iff_eq.mpr h)

/-- The cause that an announcement raises, from the count before it. -/
theorem announced_raises {notify : Bool}
    (h : notify = true ∨ (s.cq n).k.toNat ≤ (s.cq n).unannounced + 1 ∨ (s.cq n).l = 0) :
    let u := announce n notify s
    (u.ints.isr = s.ints.isr ||| BitVec.twoPow 8 (1 + n.val) ∧ u.ints.imr = s.ints.imr) ∧
      u = { s.modCq n fun c => { c with unannounced := 0, timer := none } with ints := u.ints } := by
  dsimp only
  rw [announce_raises h]
  obtain ⟨isr, imr, eq⟩ := raiseCq_eq (n := n) (s := s.modCq n (CqCtx.counted s.timebase))
  refine ⟨⟨isr, imr⟩, eq.trans ?_⟩
  rw [modCq_modCq]
  rfl

/-! ### Selection (R111, R114) -/

theorem pickEntry_none {f : HoldEntry → Bool} {l : List HoldEntry} (h : ∀ e ∈ l, f e ≠ true) : pickEntry f l = none := by
  induction l with
  | nil => rfl
  | cons a l ih =>
    have rest := ih fun e he => h e (List.mem_cons_of_mem _ he)
    rw [pickEntry, if_neg (h a (List.mem_cons_self ..)), rest]
    rfl

theorem pickEntry_append {f : HoldEntry → Bool} {pre post : List HoldEntry} (before : ∀ d ∈ pre, f d ≠ true)
    (here : f e = true) : pickEntry f (pre ++ e :: post) = some (e, pre ++ post) := by
  induction pre with
  | nil => exact if_pos here
  | cons a pre ih =>
    have rest := ih fun d hd => before d (List.mem_cons_of_mem _ hd)
    rw [List.cons_append, pickEntry, if_neg (before a (List.mem_cons_self ..)), rest]
    rfl

theorem selectable_iff : s.selectable e = true ↔ (s.cq e.cq).state = .running ∧
    ((s.cq e.cq).produced - (s.cq e.cq).consumed).toNat < (s.cq e.cq).size.toNat := by
  unfold State.selectable freeSpace
  rw [Bool.and_eq_true, beq_iff_eq]
  refine and_congr_right fun _ => ⟨fun h => ?_, fun h => decide_eq_true ?_⟩
  · exact Nat.lt_of_sub_pos (of_decide_eq_true h)
  · exact Nat.sub_pos_of_lt h

theorem selectRecord_rests (h : s.comp.writer ≠ .idle ∨ ∀ e ∈ s.comp.holding, s.selectable e ≠ true) :
    selectRecord s = s := by
  unfold selectRecord
  split
  next idle =>
    rcases h with h | h
    · exact absurd idle h
    · rw [pickEntry_none h]
  next => rfl

/-- The writer with the record it has selected, its write issued (R114). -/
def State.selected (s : State) (e : HoldEntry) (rest : List HoldEntry) : State :=
  { s with comp := { s.comp with holding := rest, writer := .record e } }.issued .cqRecord
    (.write [((s.cq e.cq).base + BitVec.ofNat 64 (32 * ((s.cq e.cq).produced.toNat % (s.cq e.cq).size.toNat)),
      e.record)]) false

theorem selectRecord_selects {pre post : List HoldEntry} (idle : s.comp.writer = .idle)
    (list : s.comp.holding = pre ++ e :: post) (before : ∀ d ∈ pre, s.selectable d ≠ true)
    (here : s.selectable e = true) : selectRecord s = handOut (s.selected e (pre ++ post)) := by
  unfold selectRecord
  rw [if_pos idle, list, pickEntry_append before here]
  rfl

/-- What a block waits with does not depend on the completion part. -/
theorem offeredEntry_selected {rest : List HoldEntry} (b : OfferBlock) :
    (s.selected e rest).offeredEntry b = s.offeredEntry b := by
  cases b <;> rfl

theorem offerOf_none {b : OfferBlock} (h : s.offerOf b = none) : s.claim b = none := by
  unfold State.claim
  rw [Option.map_eq_none_iff.mp h]

theorem claim_selected {rest : List HoldEntry} (b : OfferBlock) : (s.selected e rest).claim b = s.claim b := by
  unfold State.claim
  rw [offeredEntry_selected]
  rfl

theorem offerOf_some {b : OfferBlock} {n : CqId} (h : s.offerOf b = some n) (running : (s.cq n).state = .running) :
    ∃ r, s.claim b = some (b, r) ∧ s.offerOf b = some r.cq := by
  obtain ⟨r, offered, rfl⟩ := Option.map_eq_some_iff.mp h
  refine ⟨r, ?_, h⟩
  unfold State.claim
  rw [offered]
  exact if_pos running

/-- A place that no block waits for stays free (R111). -/
theorem handOut_none (h : ∀ b, s.claim b = none) : handOut s = s := by
  have none : s.claims = [] := by
    unfold State.claims
    rw [List.filterMap_eq_nil_iff.mpr fun b _ => h b, List.take_nil]
  unfold handOut
  rw [none]
  simp [lastOf]

/-- The one place of a list that is full again goes to the first block in turn that waits (R111). -/
theorem handOut_one {b : OfferBlock} {before behind : List OfferBlock} {r : HoldEntry}
    (one : s.comp.holding.length + 1 = Config.holdingCapacity)
    (order : blocksAfter s.comp.lastAdmitted = before ++ b :: behind) (none : ∀ c ∈ before, s.claim c = Option.none)
    (claims : s.claim b = some (b, r)) :
    (handOut s).comp = { s.comp with holding := s.comp.holding ++ [r], lastAdmitted := b } := by
  have first : s.claims = [(b, r)] := by
    unfold State.claims
    rw [order, List.filterMap_append, List.filterMap_eq_nil_iff.mpr none, List.nil_append,
      List.filterMap_cons_some claims, show Config.holdingCapacity - s.comp.holding.length = 1 by omega]
    rfl
  have given : (placesGiven s).comp = { s.comp with holding := s.comp.holding ++ [r], lastAdmitted := b } := by
    unfold placesGiven
    rw [first]
    rfl
  have passed := passed_handOut s
  have full : (placesGiven s).comp.holding.length = Config.holdingCapacity := by
    rw [given]
    exact (List.length_append ..).trans one
  rw [passed.eq]
  dsimp only
  rw [passed.joins.full full, given]

/-! ### The record's slot released (R36, R38) -/

/-- A slot released, its queue's open count one less (R36). -/
def State.released (s : State) (k : SlotId) (q : RqId) : State :=
  (s.setSlot k .free).modRq q fun c => { c with openCount := c.openCount - 1 }

theorem rq_released (r : RqId) : (s.released k q).rq r =
    if q = r then { s.rq q with openCount := (s.rq q).openCount - 1 } else s.rq r := rq_modRq ..

theorem txn_released (h : j ≠ k) : (s.released k q).txn j = s.txn j := (txn_setSlot ..).trans (if_neg h.symm)

theorem deletionEnd_kept (h : (s.rq q).state ≠ .deleting) : deletionEnd q s = s := by
  unfold deletionEnd
  exact if_neg (by simp [h])

/-- The slot of a request released, and the hold of its queue examined (R36, R38). -/
theorem finalize_examines (held : s.txn k = some x) (origin : x.origin = .rq q)
    (kept : ((examineHold q (s.released k q)).rq q).state ≠ .deleting) :
    finalize k s = examineHold q (s.released k q) := by
  unfold finalize
  rw [held]
  dsimp only
  rw [origin]
  exact deletionEnd_kept kept

theorem examineHold_none (h : (s.rq q).hold = none) : examineHold q s = s := by
  unfold examineHold State.held
  rw [h]

theorem held_of (hold : (s.rq q).hold = some j) (here : s.txn j = some x) : s.held q = some (j, x) := by
  unfold State.held
  rw [hold]
  dsimp only
  rw [here]
  rfl

theorem examineHold_places (hold : (s.rq q).hold = some j) (here : s.txn j = some x)
    (fence : x.req.fence = false ∨ (s.rq q).openCount ≤ 1)
    (room : (s.port x.port).list.length < Config.listCapacity) : examineHold q s = placeHeld q j x s := by
  unfold examineHold
  rw [held_of hold here]
  refine if_pos ?_
  simp only [State.fenceOk, State.listFull, Bool.and_eq_true, Bool.or_eq_true, Bool.not_eq_true',
    decide_eq_true_eq, decide_eq_false_iff_not, Nat.not_le]
  exact ⟨fence, room⟩

theorem examineHold_stays (hold : (s.rq q).hold = some j) (here : s.txn j = some x)
    (h : x.req.fence = true ∧ 2 ≤ (s.rq q).openCount ∨ Config.listCapacity ≤ (s.port x.port).list.length) :
    examineHold q s = s := by
  unfold examineHold
  rw [held_of hold here]
  refine if_neg ?_
  simp only [State.fenceOk, State.listFull, Bool.and_eq_true, Bool.or_eq_true, Bool.not_eq_true',
    decide_eq_true_eq, decide_eq_false_iff_not, Nat.not_le]
  rintro ⟨fence, room⟩
  rcases h with ⟨fenced, opens⟩ | full
  · rcases fence with f | f
    · rw [fenced] at f
      cases f
    · omega
  · omega

/-- The held transaction placed at the tail of its port's list (R38, R39). -/
theorem placeHeld_tail (plain : x.req.urgent = false) : placeHeld q j x s =
    { ((s.modPort x.port fun P => { P with list := P.list ++ [j] }).setSlot j (.txn { x with state := .waiting })).modRq q
        fun c => { c with hold := none } with
      fetch := { s.fetch with placed := upd s.fetch.placed x.port fun _ => q } } := by
  unfold placeHeld
  rw [insertTxn_tail plain]
  rfl

theorem discard_slot (h : e.slot = some k) : Machine.discard e s = finalize k s := by
  unfold Machine.discard
  rw [h]

/-- The record written: its slot released, the produced count risen and the status word written (R114). -/
theorem recordEnd_written (writes : s.comp.writer = .record e) (kept : (discard e s).cqs = s.cqs)
    (link : (discard e s).link = s.link) (time : (discard e s).timebase = s.timebase)
    (comp : (discard e s).comp = s.comp) :
    recordEnd true s =
      ({ discard e s with comp := { s.comp with writer := .status e.cq e.notify } }.modCq e.cq fun c =>
        { c with produced := c.produced + 1 }).issued (.cqStatus e.cq .record)
        (.write [(s.statusSlot (10 + e.cq.val), statusWord ((s.cq e.cq).produced + 1)
          (s.cq e.cq).state.code (s.cq e.cq).reason.code s.timebase)]) false := by
  have own : (((discard e s).modCq e.cq fun c => { c with produced := c.produced + 1 }).cq e.cq) =
      { s.cq e.cq with produced := (s.cq e.cq).produced + 1 } := by
    rw [cq_modCq, if_pos rfl]
    unfold State.cq
    rw [kept]
  have word : (State.cqStatusXfer { (discard e s).modCq e.cq fun c => { c with produced := c.produced + 1 } with
      comp := { s.comp with writer := .status e.cq e.notify } } e.cq) =
      .write [(s.statusSlot (10 + e.cq.val), statusWord ((s.cq e.cq).produced + 1)
        (s.cq e.cq).state.code (s.cq e.cq).reason.code s.timebase)] := by
    unfold State.cqStatusXfer State.statusSlot
    refine congrArg Xfer.write (congrArg (fun x => [x]) (Prod.ext ?_ ?_))
    · exact congrArg (fun l : Link => l.setupBase + BitVec.ofNat 64 (64 + 8 * (10 + e.cq.val))) link
    · exact (congrArg (cqStatusWord · _) own).trans (congrArg (cqStatusWord _) time)
  unfold recordEnd
  rw [writes]
  dsimp only
  rw [if_pos rfl]
  unfold writeCqStatus
  rw [show ({ (discard e s).modCq e.cq fun c => { c with produced := c.produced + 1 } with
    comp := { ((discard e s).modCq e.cq fun c => { c with produced := c.produced + 1 }).comp with
      writer := .status e.cq e.notify } } : State) =
    { (discard e s).modCq e.cq fun c => { c with produced := c.produced + 1 } with
      comp := { s.comp with writer := .status e.cq e.notify } } by rw [modCq_comp, comp], word]
  rfl

/-- A failed record write takes a RUNNING queue to ERROR (R115). -/
theorem recordEnd_failed (writes : s.comp.writer = .record e) (running : (s.cq e.cq).state = .running) :
    recordEnd false s = discard e (cqEnterError e.cq .hostFault { s with comp := { s.comp with writer := .idle } }) := by
  unfold recordEnd
  rw [writes]
  exact congrArg (discard e) (if_pos running)

end Sys2Proof.Machine

namespace Sys2Proof.Proofs
open Sys2Proof.Machine

/-- Settles O50: the status word's end by its occasion, and the timer. -/
theorem recordsAreAnnounced : Obligations.RecordsAreAnnounced := by
  unfold Obligations.RecordsAreAnnounced
  intro s n out raised failed
  refine ⟨fun a rest k m notify on fly => ⟨fun kind => ?_, fun kind writes => ?_⟩, fun live => ?_⟩
  · have row (ok : Bool) (he : EndsAs a ok 0) : exec (.cqStatusWordWriteEnd n k ok) s =
        .next (if ok || a.further then s.inFlight rest else cqEnterError n .hostFault (s.inFlight rest)) := by
      refine (congrArg Host.Outcome.next (access_heeded out on (fun _ => rfl) fly he)).trans ?_
      rw [Access.occasion, kind]
      rfl
    refine ⟨fun ends => row true ends, fun quiet => ?_, fun running first idle => ?_⟩
    · refine (row false nofun).trans (congrArg _ ?_)
      rcases quiet with h | h
      · split
        · rfl
        · exact cqEnterError_left h
      · rw [h]
        rfl
    · obtain ⟨ctx, latch, -, -, word⟩ := cqEnterError_running (reason := .hostFault) (s := s.inFlight rest) running
      refine ⟨_, (row false nofun).trans (by rw [first]; rfl), ?_, ?_, latch, word idle⟩
      · exact (congrArg CqCtx.state ctx :)
      · exact (congrArg CqCtx.reason ctx :)
  · intro idle
    have row (ok : Bool) (he : EndsAs a ok 0) : exec (.cqStatusWordWriteEnd n k ok) s =
        .next (if ok then announce n notify idle else cqEnterError n .hostFault idle) := by
      refine (congrArg Host.Outcome.next (access_heeded out on (fun _ => rfl) fly he)).trans ?_
      rw [Access.occasion, kind]
      dsimp only [cqStatusEnd]
      unfold recordStatusEnd
      rw [show (s.inFlight rest).comp.writer = .status m notify from writes]
      rfl
    refine ⟨fun ends => ⟨fun h => ?_, fun plain few timed => ?_⟩, fun running => ?_⟩
    · obtain ⟨isr, eq⟩ := announced_raises (s := idle) (n := n) h
      exact ⟨_, row true ends, isr, eq⟩
    · exact (row true ends).trans (congrArg _ (announce_quiet (s := idle) plain few timed))
    · obtain ⟨ctx, latch, -, writer, word⟩ := cqEnterError_running (reason := .hostFault) (s := idle) running
      refine ⟨_, row false nofun, ⟨?_, ?_, latch, word rfl⟩, writer⟩
      · exact (congrArg CqCtx.state ctx :)
      · exact (congrArg CqCtx.reason ctx :)
  · have row : exec (.coalescingTimerExpiry n) s = .next (coalescingExpiry n s) :=
      congrArg _ (whenLive_of_live live)
    rw [row]
    unfold coalescingExpiry
    refine ⟨fun h => ?_, fun t timer late => ?_⟩
    · rcases h with h | ⟨t, timer, early⟩
      · rw [h]
      · rw [timer]
        exact congrArg _ (if_neg (Nat.not_le.mpr early))
    · rw [timer]
      obtain ⟨isr, imr, eq⟩ := raiseCq_eq (n := n) (s := s)
      exact ⟨raiseCq n s, congrArg _ (if_pos late), ⟨isr, imr⟩, eq⟩

/-- Settles O49: the oldest selectable record (`selectRecord_selects`), the place it frees (`handOut_one`), the slot it
kept (`finalize_examines`), and the failed write. -/
theorem recordsAreWritten : Obligations.RecordsAreWritten := by
  unfold Obligations.RecordsAreWritten
  intro s
  refine ⟨fun live => ?_, fun e a rest out on writes fly => ?_⟩
  · have row : exec .recordSelection s = .next (selectRecord s) := congrArg _ (whenLive_of_live live)
    have unselectable (d : HoldEntry) (h : (s.cq d.cq).state ≠ .running ∨
        (s.cq d.cq).size.toNat ≤ ((s.cq d.cq).produced - (s.cq d.cq).consumed).toNat) : s.selectable d ≠ true := by
      rw [ne_eq, selectable_iff]
      rintro ⟨running, room⟩
      rcases h with h | h
      · exact h running
      · exact absurd room (Nat.not_lt.mpr h)
    rw [row]
    refine ⟨fun h => congrArg _ (selectRecord_rests (h.imp id fun h e he => unselectable e (h e he))), ?_⟩
    intro pre post e idle list before running room
    have selects := selectRecord_selects idle list (fun d hd => unselectable d (before d hd))
      (selectable_iff.mpr ⟨running, room⟩)
    rw [selects]
    refine ⟨fun none => congrArg _ (handOut_none fun b => ?_), fun b ahead behind full order none offers => ?_⟩
    · rw [claim_selected]
      exact offerOf_none (none b)
    · obtain ⟨n, offered, on⟩ := offers
      obtain ⟨r, claims, is⟩ := offerOf_some offered on
      have one : (s.selected e (pre ++ post)).comp.holding.length + 1 = Config.holdingCapacity := by
        rw [list, List.length_append, List.length_cons] at full
        change (pre ++ post).length + 1 = 32
        rw [List.length_append]
        omega
      have comp := handOut_one (s := s.selected e (pre ++ post)) one order
        (fun c hc => (claim_selected c).trans (offerOf_none (none c hc))) ((claim_selected b).trans claims)
      exact ⟨_, rfl, by rw [comp]; rfl, by rw [comp], r, by rw [comp]; rfl, is⟩
  · have row (ok : Bool) (he : EndsAs a ok 0) : exec (.recordWriteEnd ok) s = .next (recordEnd ok (s.inFlight rest)) :=
      congrArg Host.Outcome.next (access_heeded out on (fun _ => rfl) fly he)
    have frame := (released_discard e (s.inFlight rest)).eq
    have written := recordEnd_written (s := s.inFlight rest) writes (by rw [frame]) (by rw [frame]) (by rw [frame])
      (by rw [frame])
    refine ⟨fun u ends which => ?_, fun k j t v q ends slot held origin kept hold ne here plain => ?_, fun running => ?_⟩
    · have is : discard e (s.inFlight rest) = u := by
        rcases which with ⟨none, rfl⟩ | ⟨k, t, w, slot, held, origin, rfl⟩ |
          ⟨k, t, q, slot, held, origin, hold, kept, rfl⟩
        · unfold Machine.discard
          rw [none]
        · unfold Machine.discard finalize
          rw [slot]
          dsimp only
          rw [show (s.inFlight rest).txn k = some t from held]
          dsimp only
          rw [origin]
        · have quiet : examineHold q ((s.inFlight rest).released k q) = (s.inFlight rest).released k q :=
            examineHold_none (by rw [rq_released, if_pos rfl]; exact hold)
          unfold Machine.discard
          rw [slot]
          exact (finalize_examines (s := s.inFlight rest) held origin (by rw [quiet, rq_released, if_pos rfl]; exact kept)).trans quiet
      rw [row true ends, written, is]
      rfl
    · have off : (s.inFlight rest).txn k = some t := held
      have own := (rq_released (s := s.inFlight rest) (k := k) (q := q) q).trans (if_pos rfl)
      have there : ((s.inFlight rest).released k q).txn j = some v := (txn_released ne).trans here
      have still : (((s.inFlight rest).released k q).rq q).hold = some j := by
        rw [own]
        exact hold
      have gone := (slot_setSlot (s := s.inFlight rest) k k .free).trans (if_pos rfl)
      by_cases placed : (v.req.fence = false ∨ (s.rq q).openCount ≤ 2) ∧ (s.port v.port).list.length < 32
      · have places := (examineHold_places still there (placed.1.imp id fun few => by rw [own]; exact Nat.pred_le_pred few)
          placed.2).trans (placeHeld_tail plain)
        have ctx : ((examineHold q ((s.inFlight rest).released k q)).rq q) =
            { s.rq q with openCount := (s.rq q).openCount - 1, hold := none } := by
          rw [places]
          refine (rq_modRq ..).trans ((if_pos rfl).trans ?_)
          exact congrArg (fun c : RqCtx => { c with hold := none }) own
        have is := (discard_slot slot).trans ((finalize_examines off origin (by rw [ctx]; exact kept)).trans places)
        rw [places] at ctx
        rw [is] at written
        refine ⟨_, (row true ends).trans (congrArg _ written), ?_, fun _ _ => ⟨?_, ?_, ctx, ?_⟩, fun h => ?_⟩
        · exact ((slot_setSlot ..).trans (if_neg ne)).trans gone
        · exact (txn_setSlot ..).trans (if_pos rfl)
        · exact (congrArg Port.list ((port_modPort ..).trans (if_pos rfl)) :)
        · exact (get_upd ..).trans (if_pos rfl)
        · exfalso
          rcases h with ⟨fenced, many⟩ | full
          · rcases placed.1 with f | f
            · rw [fenced] at f
              cases f
            · omega
          · exact absurd placed.2 (Nat.not_lt.mpr full)
      · have back : v.req.fence = true ∧ 3 ≤ (s.rq q).openCount ∨ 32 ≤ (s.port v.port).list.length := by
          by_cases full : 32 ≤ (s.port v.port).list.length
          · exact .inr full
          · obtain ⟨fenced, many⟩ := not_or.mp fun fence => placed ⟨fence, Nat.lt_of_not_le full⟩
            exact .inl ⟨by simpa using fenced, Nat.lt_of_not_le many⟩
        have stays := examineHold_stays still there (back.imp (fun h => ⟨h.1, by rw [own]; exact Nat.pred_le_pred h.2⟩) id)
        have is := (discard_slot slot).trans ((finalize_examines off origin (by rw [stays, own]; exact kept)).trans stays)
        rw [is] at written
        exact ⟨_, (row true ends).trans (congrArg _ written), gone, fun fence room => absurd ⟨fence, room⟩ placed,
          fun _ => ⟨there, rfl, rfl, own⟩⟩
    · have failed := recordEnd_failed (s := s.inFlight rest) writes running
      obtain ⟨ctx, ⟨y, mem, is⟩, without, writer, -⟩ := cqEnterError_running (n := e.cq) (reason := .hostFault)
        (s := { s.inFlight rest with comp := { s.comp with writer := .idle } }) running
      have later := (released_discard e (cqEnterError e.cq .hostFault
        { s.inFlight rest with comp := { s.comp with writer := .idle } })).passed.onward
      have own := (later.cq e.cq).trans ctx
      refine ⟨_, (row false nofun).trans (congrArg _ failed), (congrArg CqCtx.state own :),
        (congrArg CqCtx.reason own :), (congrArg CqCtx.produced own :), later.writer.trans writer,
        ⟨y, later.latches y mem, is⟩, later.without e.cq (by rw [ctx]; nofun) without⟩

end Sys2Proof.Proofs
end

section
/-! SUPPORT. ABORT: the transactions of a tag, sorted into hits and those too late, and marked or stopped (R58, R82,
R182). From it the statement AbortMarks. -/

namespace Sys2Proof.Machine

variable {s v : State} {p : PortId} {q : RqId} {k j : SlotId} {t u : Txn} {e : List Byte} {tag : Half}

theorem struck_iff : t.struck q tag = true ↔ t.origin = .rq q ∧ t.req.tag = tag := by
  unfold Txn.struck Txn.ofQueue
  simp

/-- An ABORT of a queue that exists counts the transactions as they stand, and then strikes them. -/
theorem exec_abort (h : Executing 0x13 e s) (named : (byteAt e 8).toNat = q.val) (there : (s.rq q).state ≠ .absent) :
    exec .abort s = .next (completeCommand .success (BitVec.ofNat 32 (abortCount true q (rd16 e 10) s))
      (BitVec.ofNat 32 (abortCount false q (rd16 e 10) s)) (allSlots.foldl (strikeSlot q (rd16 e 10)) s)) :=
  h.runs (f := abortTag) rfl (by rw [abortTag, asId_of_toNat_eq named]; exact if_neg there)

/-! ### None of them in service (R58) -/

/-- A transaction of the tag without a mark is marked ABORTED while it is HELD or WAITING. -/
def Txn.abortMarked (q : RqId) (tag : Half) (t : Txn) : Txn :=
  if t.struck q tag ∧ (t.state = .held ∨ t.state = .waiting) then t.markedBy .aborted else t

/-- A transaction whose service an ABORT of the tag has not to end. -/
def Txn.atRest (q : RqId) (tag : Half) (t : Txn) : Prop :=
  t.struck q tag = true → t.state = .held ∨ t.state = .waiting ∨ t.state = .draining ∨ t.state = .posting ∨
    t.state = .malformed ∨ t.state = .recorded

theorem abortHits_atRest (rest : t.atRest q tag) (mine : t.struck q tag = true) :
    abortHits t s = ((t.state == .held || t.state == .waiting) && t.mark.isNone) := by
  unfold abortHits
  rcases rest mine with e | e | e | e | e | e <;> rw [e] <;> rfl

theorem strikeSlot_atRest (s : State) (k : SlotId) (rest : ∀ t, s.txn k = some t → t.atRest q tag) :
    strikeSlot q tag s k = s.modTxn k (Txn.abortMarked q tag) := by
  unfold strikeSlot
  cases held : s.txn k with
  | none => exact (modTxn_of_none held _).symm
  | some t =>
    dsimp only
    rw [modTxn_of_txn held]
    by_cases mine : t.struck q tag = true
    · by_cases waiting : t.state = .held ∨ t.state = .waiting
      · have marks : t.abortMarked q tag = t.markedBy .aborted := if_pos ⟨mine, waiting⟩
        rw [mine, Bool.true_and, abortHits_atRest (rest t held) mine, marks]
        cases mark : t.mark with
        | none =>
          rw [if_pos (by simpa using waiting), ← modTxn_of_txn held (Txn.markedBy · .aborted), ← markTxn_modTxn]
          unfold strike
          rcases waiting with e | e <;> rw [e]
        | some m =>
          have kept : t.markedBy .aborted = t := if_neg (by rw [mark]; exact Bool.false_ne_true)
          rw [if_neg (by simp), kept, setSlot_self held]
      · have kept : t.abortMarked q tag = t := if_neg fun both => waiting both.2
        rw [mine, Bool.true_and, abortHits_atRest (rest t held) mine, kept, setSlot_self held]
        exact if_neg (by simpa using fun h => absurd h waiting)
    · have kept : t.abortMarked q tag = t := if_neg fun both => mine both.1
      rw [kept, setSlot_self held]
      exact if_neg (by simp [mine])

theorem abortMarked_of_unmarked (mine : t.struck q tag = true) (waiting : t.state = .held ∨ t.state = .waiting)
    (unmarked : t.mark = none) : t.abortMarked q tag = { t with mark := some .aborted } := by
  rw [Txn.abortMarked, if_pos ⟨mine, waiting⟩, Txn.markedBy, unmarked]
  rfl

theorem abortMarked_of_not (h : t.struck q tag = false ∨ (t.state ≠ .held ∧ t.state ≠ .waiting) ∨ t.mark ≠ none) :
    t.abortMarked q tag = t := by
  unfold Txn.abortMarked Txn.markedBy
  split
  next both =>
    refine if_neg fun unmarked => ?_
    obtain ⟨mine, waiting⟩ := both
    rcases h with other | ⟨unheld, unlisted⟩ | marked
    · rw [other] at mine
      exact Bool.false_ne_true mine
    · exact waiting.elim unheld unlisted
    · exact marked (Option.isNone_iff_eq_none.mp unmarked)
  · rfl

/-! ### One of them in service (R58, R82) -/

theorem length_filter_of_only {α : Type} {l : List α} {f : α → Bool} {a : α} (nodup : l.Nodup) (here : a ∈ l)
    (only : ∀ b, b ≠ a → f b = false) : (l.filter f).length = (f a).toNat := by
  obtain ⟨pre, post, rfl⟩ := List.append_of_mem here
  obtain ⟨-, nodup_post, apart⟩ := List.nodup_append.mp nodup
  have fresh : a ∉ post := (List.nodup_cons.mp nodup_post).1
  have before : pre.filter f = [] := List.filter_eq_nil_iff.mpr fun b hb => by
    rw [only b fun e => apart b hb a (List.mem_cons_self ..) e]
    exact Bool.false_ne_true
  have after : post.filter f = [] := List.filter_eq_nil_iff.mpr fun b hb => by
    rw [only b fun e => fresh (e ▸ hb)]
    exact Bool.false_ne_true
  rw [List.filter_append, before, List.filter_cons, after]
  cases f a <;> rfl

/-- Where the tag names one transaction, it is the one counted. -/
theorem abortCount_of_only {hit : Bool} (held : s.txn k = some t) (mine : t.struck q tag = true)
    (only : ∀ j u, j ≠ k → s.txn j = some u → u.struck q tag = false) :
    abortCount hit q tag s = (abortHits t s == hit).toNat := by
  unfold abortCount
  rw [length_filter_of_only nodup_allSlots (mem_allSlots k) fun j ne => ?_, held]
  · dsimp only
    rw [mine, Bool.true_and]
  · cases there : s.txn j with
    | none => rfl
    | some u => exact Bool.and_eq_false_iff.mpr (.inl (only j u ne there))

theorem strikeSlot_idle (only : ∀ u, v.txn j = some u → u.struck q tag = false) : strikeSlot q tag v j = v := by
  unfold strikeSlot
  split
  next u there => exact if_neg (by rw [only u there]; exact Bool.false_ne_true)
  · rfl

/-- Where the tag names one transaction, it alone is struck, if it can be. -/
theorem strikes_of_only (held : s.txn k = some t) (mine : t.struck q tag = true)
    (only : ∀ j u, j ≠ k → s.txn j = some u → u.struck q tag = false)
    (own : ∀ j, j ≠ k → (strike k t s).txn j = s.txn j) :
    allSlots.foldl (strikeSlot q tag) s = if abortHits t s then strike k t s else s := by
  have here : strikeSlot q tag s k = if abortHits t s then strike k t s else s := by
    unfold strikeSlot
    rw [held]
    dsimp only
    rw [mine, Bool.true_and]
  rw [← here]
  refine foldl_one (get := State.txn) (fun j ne => ?_) nodup_allSlots (mem_allSlots k) fun j _ ne u same =>
    strikeSlot_idle fun x there => only j x ne (same.symm.trans there)
  rw [here]
  split
  · exact own j ne
  · rfl

/-- ABORT of a tag that one transaction has, which it hits. -/
theorem exec_abort_hit (h : Executing 0x13 e s) (named : (byteAt e 8).toNat = q.val) (there : (s.rq q).state ≠ .absent)
    (held : s.txn k = some t) (mine : t.struck q (rd16 e 10) = true)
    (only : ∀ j u, j ≠ k → s.txn j = some u → u.struck q (rd16 e 10) = false) (hit : abortHits t s = true)
    (strikes : strike k t s = v) (serves : ServiceOnly k s v) : exec .abort s = .next (answered e .success 1 0 v) := by
  subst strikes
  have waits : (strike k t s).mgmt.command = some { entry := e, phase := .execute } := by
    rw [serves.1]
    exact h.held
  rw [exec_abort h named there, abortCount_of_only held mine only, abortCount_of_only held mine only,
    strikes_of_only held mine only serves.2, hit]
  exact congrArg Host.Outcome.next (completeCommand_of_command waits)

/-- ABORT of a tag that one transaction has, for which it is too late. -/
theorem exec_abort_late (h : Executing 0x13 e s) (named : (byteAt e 8).toNat = q.val) (there : (s.rq q).state ≠ .absent)
    (held : s.txn k = some t) (mine : t.struck q (rd16 e 10) = true)
    (only : ∀ j u, j ≠ k → s.txn j = some u → u.struck q (rd16 e 10) = false) (late : abortHits t s = false) :
    exec .abort s = .next (answered e .success 0 1 s) := by
  have stays : strikeSlot q (rd16 e 10) s k = s := by
    unfold strikeSlot
    rw [held]
    exact if_neg (by rw [mine, late]; exact Bool.false_ne_true)
  have all : allSlots.foldl (strikeSlot q (rd16 e 10)) s = s := by
    rw [foldl_one (get := State.txn) (m := k) (fun j _ => by rw [stays]) nodup_allSlots (mem_allSlots k) fun j _ ne u same =>
      strikeSlot_idle fun x there => only j x ne (same.symm.trans there), stays]
  rw [exec_abort h named there, abortCount_of_only held mine only, abortCount_of_only held mine only, all, late,
    completeCommand_of_command h.held]
  rfl

theorem serviceOnly_modPort {f : Port → Port} : ServiceOnly k s (s.modPort p f) := ⟨rfl, fun _ _ => rfl⟩

theorem serviceOnly_fixOutside {r : Result} {d : Byte} (served : (s.port p).inService = some k) (held : s.txn k = some t)
    (failed : r ≠ .ok) (can : CanPost s p t) : ServiceOnly k s (fixOutside p k r d s) := by
  rw [fixOutside_posts served held failed can]
  exact (serviceOnly_posted (s := s.cleared p)).of_ports rfl

theorem ServiceOnly.answered_mgmt {u : State} {a b : Word} (h : ServiceOnly k s u) :
    (answered e .success a b u).mgmt = (answered e .success a b s).mgmt := by rw [h.1]; rfl

end Sys2Proof.Machine

namespace Sys2Proof.Proofs

open Sys2Proof.Machine

/-- Settles O37: the state of the one in service says whether the ABORT hits it; with none in service the ABORT marks
what waits, one slot after the other. -/
theorem abortMarks : Obligations.AbortMarks := by
  intro s e h
  have answers (does : abortTag e s = reply .invalidId s) : Answers .abort e .invalidId s := h.answers rfl does
  refine ⟨fun beyond => answers (by rw [abortTag, asId_of_le beyond]), fun q named => ⟨fun absent =>
    answers (by rw [abortTag, asId_of_toNat_eq named]; exact if_pos absent), fun there rest => ?marks,
    fun p k t there served held port mine tagged alone => ?strikes⟩⟩
  case marks =>
    have calm (k : SlotId) (t : Txn) (ht : s.txn k = some t) : t.atRest q (rd16 e 10) := fun isIt =>
      rest k t ht (struck_iff.mp isIt).1 (struck_iff.mp isIt).2
    obtain ⟨frame, each, -⟩ := foldl_slots strikeSlot_atRest allSlots nodup_allSlots s fun k _ t ht => calm k t ht
    have count (hit : Bool) {f : SlotId → Bool} (empty : ∀ k, s.txn k = none → f k = false)
        (sorts : ∀ k t, s.txn k = some t → f k = (t.struck q (rd16 e 10) &&
          (((t.state == .held || t.state == .waiting) && t.mark.isNone) == hit))) :
        abortCount hit q (rd16 e 10) s = (allSlots.filter f).length := by
      refine congrArg List.length (List.filter_congr fun k _ => ?_)
      cases ht : s.txn k with
      | none => exact (empty k ht).symm
      | some t =>
        refine Eq.trans ?_ (sorts k t ht).symm
        dsimp only
        cases isIt : t.struck q (rd16 e 10) with
        | false => rfl
        | true => rw [abortHits_atRest (calm k t ht) isIt]
    rw [exec_abort h named there]
    generalize allSlots.foldl (strikeSlot q (rd16 e 10)) s = u at frame each
    have waits : u.mgmt.command = some { entry := e, phase := .execute } := by
      rw [frame]
      exact h.held
    refine ⟨_, rfl, ?_, fun k t ht => ?_⟩
    · rw [completeCommand_of_command waits]
      refine Eq.trans ?_ (congrArg₂ (fun a b => { answered e .success (BitVec.ofNat 32 a) (BitVec.ofNat 32 b) s with
        slots := u.slots }) (count true ?_ ?_) (count false ?_ ?_))
      · rw [frame]
        rfl
      all_goals intro k
      · intro ht
        rw [ht]
      · intro t ht
        rw [ht]
        simp [Txn.struck, Txn.ofQueue, Bool.and_assoc]
      · intro ht
        rw [ht]
      · intro t ht
        rw [ht]
        simp [Txn.struck, Txn.ofQueue]
    · have entry : u.txn k = some (t.abortMarked q (rd16 e 10)) := (each k (mem_allSlots k)).trans (congrArg _ ht)
      rw [completeCommand_of_command waits]
      refine ⟨fun isIt tagged waiting unmarked => ?_, fun not => ?_⟩
      · exact entry.trans (congrArg some (abortMarked_of_unmarked (struck_iff.mpr ⟨isIt, tagged⟩) waiting unmarked))
      · refine entry.trans (congrArg some (abortMarked_of_not ?_))
        rcases not with other | untagged | not
        · exact .inl (Bool.eq_false_iff.mpr fun isIt => other (struck_iff.mp isIt).1)
        · exact .inl (Bool.eq_false_iff.mpr fun isIt => untagged (struck_iff.mp isIt).2)
        · exact .inr not
  case strikes =>
    subst port
    have struck : t.struck q (rd16 e 10) = true := struck_iff.mpr ⟨mine, tagged⟩
    have only (j : SlotId) (u : Txn) (ne : j ≠ k) (hu : s.txn j = some u) : u.struck q (rd16 e 10) = false :=
      Bool.eq_false_iff.mpr fun isIt => (alone j u ne hu).elim (· (struck_iff.mp isIt).1) (· (struck_iff.mp isIt).2)
    have hits {v : State} := exec_abort_hit (v := v) h named there held struck only
    have takes (undecided : (s.port t.port).eng.outcome = none) (unasked : (s.port t.port).eng.stopReq = none)
        (loud : (s.port t.port).eng.quiet = false) (phase : (s.port t.port).eng.phase ≠ .none) :
        (s.port t.port).eng.takesStop = true := takesStop_iff.mpr ⟨phase, undecided, unasked, loud⟩
    have asks (active : t.state = .active) : strike k t s = requestStop t.port .aborted s := by rw [strike, active]
    have hitActive (active : t.state = .active) (can : (s.port t.port).eng.takesStop = true) : abortHits t s = true := by
      rw [abortHits, active]
      exact can
    refine ⟨fun staging free => ?_, fun idle can => ?_, fun active way undecided unasked loud => ?_, fun late => ?_,
      fun active undecided unasked loud => ⟨fun opening restart => ?_, fun ends can => ?_⟩⟩
    · refine hits ?_ ?_ serviceOnly_modPort
      · rw [abortHits, staging]
        exact Option.isNone_iff_eq_none.mpr free
      · rw [strike, staging]
        exact setPendingResult_of_none free
    · have serves := serviceOnly_fixOutside (d := 0) (r := .aborted) served held nofun can
      refine ⟨_, hits ?_ ?_ serves, serves.answered_mgmt, recordPosted_fixOutside served held nofun can⟩
      · rw [abortHits]
        rcases idle with e | e <;> rw [e]
      · rw [strike]
        rcases idle with e | e <;> rw [e]
    · have stops := takes undecided unasked loud fun none_yet => by simp [none_yet] at way
      exact hits (hitActive active stops) ((asks active).trans (requestStop_goes_on stops way)) serviceOnly_modPort
    · refine exec_abort_late h named there held struck only ?_
      rw [abortHits]
      rcases late with ⟨e, set⟩ | ⟨e, decided⟩ | e | e <;> rw [e]
      · exact Option.isNone_eq_false_iff.mpr (Option.isSome_iff_ne_none.mpr set)
      · refine Bool.eq_false_iff.mpr fun stops => ?_
        obtain ⟨-, undecided, unasked, -⟩ := takesStop_iff.mp stops
        exact decided.elim (· undecided) (· unasked)
    · have stops := takes undecided unasked loud (by rw [opening]; nofun)
      exact hits (hitActive active stops) ((asks active).trans (requestStop_restart stops opening restart)) serviceOnly_modPort
    · have stops := takes undecided unasked loud (by rcases ends with e | ⟨e, -⟩ <;> rw [e] <;> nofun)
      obtain ⟨stopped, serves⟩ := requestStop_at_once (y := .aborted) stops ends served held ⟨q, mine⟩ can
      exact ⟨_, hits (hitActive active stops) (asks active) serves, serves.answered_mgmt, stopped⟩

end Sys2Proof.Proofs
end

section
/-! SUPPORT. Dispatch, and the place that a transaction leaves in its port's list (R38, R39, R48, R49). From them the
statement DispatchTakesTheFirst. -/

namespace Sys2Proof.Machine

variable {s v : State} {p : PortId} {q : RqId} {k j : SlotId} {t x : Txn} {r : Result} {l : List SlotId}

/-! ### The place freed in a list (R38, R39) -/

theorem waitsFor_of (hold : (s.rq q).hold = some j) (here : s.txn j = some x) (port : x.port = p)
    (fence : x.req.fence = false ∨ (s.rq q).openCount ≤ 1) : s.waitsFor p q = true := by
  unfold State.waitsFor
  rw [held_of hold here]
  simpa [State.fenceOk, port] using fence

theorem waitsFor_eq_false (h : ∀ i w, (s.rq q).hold = some i → s.txn i = some w →
    w.port ≠ p ∨ w.req.fence = true ∧ 2 ≤ (s.rq q).openCount) : s.waitsFor p q = false := by
  unfold State.waitsFor State.held
  cases hold : (s.rq q).hold with
  | none => rfl
  | some i =>
    dsimp only
    cases here : s.txn i with
    | none => rfl
    | some w =>
      have either := h i w hold here
      simp only [Option.map_some, State.fenceOk, Bool.and_eq_false_iff, Bool.or_eq_false_iff, beq_eq_false_iff_ne,
        Bool.not_eq_false', decide_eq_false_iff_not, Nat.not_le]
      exact either

/-- The place goes to the first hold that waits for the port, from the queue after the one last placed there (R39). -/
theorem offerPlace_examines {pre post : List RqId} (order : after (s.fetch.placed.get p) = pre ++ q :: post)
    (before : ∀ x ∈ pre, s.waitsFor p x = false) (waits : s.waitsFor p q = true) : offerPlace p s = examineHold q s := by
  unfold offerPlace
  rw [order, List.find?_append, List.find?_eq_none.mpr fun x hx => by rw [before x hx]; exact Bool.false_ne_true,
    Option.none_or, List.find?_cons, waits]

/-- What placing a held transaction at the tail of its port's list makes (R38, R39). -/
theorem placeHeld_plain (plain : x.req.urgent = false) :
    (placeHeld q j x s).port x.port = { s.port x.port with list := (s.port x.port).list ++ [j] } ∧
      (placeHeld q j x s).txn j = some { x with state := .waiting } ∧
      (placeHeld q j x s).rq q = { s.rq q with hold := none } ∧ (placeHeld q j x s).fetch.placed.get x.port = q ∧
      ∀ y, y ≠ q → (placeHeld q j x s).rq y = s.rq y := by
  rw [placeHeld_tail plain]
  exact ⟨(port_modPort ..).trans (if_pos rfl), (txn_setSlot ..).trans (if_pos rfl), (rq_modRq ..).trans (if_pos rfl),
    (get_upd ..).trans (if_pos rfl), fun y other => (rq_modRq ..).trans (if_neg other.symm)⟩

theorem leaveList_offers (quiet : ((offerPlace p (s.modPort p Port.left)).port p).disablePending = false) :
    leaveList p s = offerPlace p (s.modPort p Port.left) := by
  unfold leaveList
  exact if_neg fun pending => Bool.false_ne_true (quiet.symm.trans pending)

/-! ### Dispatch (R48, R49) -/

/-- The port with transaction `k` taken into service (R48). -/
def State.serving (s : State) (p : PortId) (k : SlotId) : State :=
  s.modPort p fun P => { P with inService := some k, pendingResult := none, outbound := [], inbound := [] }

theorem port_serving : (s.serving p k).port p =
    { s.port p with inService := some k, pendingResult := none, outbound := [], inbound := [] } :=
  (port_modPort ..).trans (if_pos rfl)

theorem exec_dispatch (run : Running s) (free : (s.port p).inService = none) (quiet : (s.port p).disablePending = false)
    (list : (s.port p).list = k :: l) (held : s.txn k = some t) :
    exec (.dispatch p) s = .next (dispatchHead p k t s) := by
  refine congrArg Host.Outcome.next ((whenRunning_of_running run).trans ?_)
  unfold dispatch
  rw [free, quiet, list]
  dsimp only
  rw [held]
  rfl

theorem exec_dispatch_idle (run : Running s)
    (h : (s.port p).inService ≠ none ∨ (s.port p).disablePending = true ∨ (s.port p).list = []) :
    exec (.dispatch p) s = .next s := by
  refine congrArg Host.Outcome.next ((whenRunning_of_running run).trans ?_)
  unfold dispatch
  rcases h with busy | pending | empty
  · refine if_neg fun both => busy (Option.isNone_iff_eq_none.mp (Bool.and_eq_true_iff.mp both).1)
  · rw [pending, Bool.not_true, Bool.and_false]
    rfl
  · rw [empty]
    exact ite_self s

/-- A transaction with a mark, or on a port that is OFF or FAULTED, gets its result at once (R48). -/
theorem dispatchHead_fixes (h : t.mark = some r ∨
    t.mark = none ∧ r = .portOff ∧ ((s.port p).state = .off ∨ (s.port p).state = .faulted)) :
    dispatchHead p k t s = fixOutside p k r 0 (s.serving p k) := by
  unfold dispatchHead
  dsimp only
  rw [show (s.modPort p fun P => { P with
    inService := some k, pendingResult := none, outbound := [], inbound := [] }) = s.serving p k from rfl]
  rcases h with mark | ⟨unmarked, rfl, off⟩
  · rw [mark]
  · rw [unmarked]
    dsimp only
    rw [port_serving]
    exact if_pos (by simpa using off)

section

variable (unmarked : t.mark = none) (on : (s.port p).state ≠ .off) (sound : (s.port p).state ≠ .faulted)
include unmarked on sound

/-- A triggered transaction has its write bytes (R49, R124). -/
theorem dispatchHead_instance {d : InstanceData} (isIt : t.trig = some d) : dispatchHead p k t s =
    ((s.serving p k).modPort p fun P => { P with outbound := writeAreaBytes t.req d.writeData }).modTxn k
      fun t => { t with state := .ready } := by
  unfold dispatchHead
  dsimp only
  rw [show (s.modPort p fun P => { P with
    inService := some k, pendingResult := none, outbound := [], inbound := [] }) = s.serving p k from rfl, unmarked]
  dsimp only
  rw [port_serving, isIt]
  exact if_neg (by simpa using And.intro on sound)

/-- A request has the bytes it writes read first (R49). -/
theorem dispatchHead_request (request : t.trig = none) : dispatchHead p k t s =
    if t.req.writeBytes = 0 then (s.serving p k).modTxn k fun t => { t with state := .ready }
    else issue (.staging p) (.read (stagingRanges t.req)) false
      ((s.serving p k).modTxn k fun t => { t with state := .staging }) := by
  unfold dispatchHead
  dsimp only
  rw [show (s.modPort p fun P => { P with
    inService := some k, pendingResult := none, outbound := [], inbound := [] }) = s.serving p k from rfl, unmarked]
  dsimp only
  rw [port_serving, request]
  exact if_neg (by simpa using And.intro on sound)

end

/-- A result fixed at dispatch posts its record (R48, R54). -/
theorem recordPosted_dispatch (held : s.txn k = some t) (failed : r ≠ .ok) (can : CanPost s p t) :
    RecordPosted s (fixOutside p k r 0 (s.serving p k)) p k { t with
      state := .posting, result := r, detail := 0, segIndex := 0, writeCount := 0, readCount := 0,
      endTime := s.timebase } := by
  have able : CanPost (s.serving p k) p t := can.congr rfl rfl rfl rfl rfl (by rw [port_serving])
  rw [fixOutside_posts (s := s.serving p k) (by rw [port_serving]) held failed able]
  exact recordPosted_posted (x := t.fixed r 0 s.timebase) can.1 rfl rfl rfl (by rw [port_cleared, port_serving])
    (by rw [port_cleared, port_serving])

/-- The state after a result fixed at dispatch has been posted and the port's list has a place free. -/
def State.dispatched (s : State) (p : PortId) (k : SlotId) (x : Txn) : State := ((s.serving p k).cleared p).posted p k x

/-- A posted transaction keeps its port and its request. -/
theorem names_posted (held : s.txn k = some t) (port : x.port = t.port) (req : x.req = t.req) {y : Txn}
    (there : (v.posted p k x).txn j = some y) (same : v.txn = s.txn) :
    ∃ w, s.txn j = some w ∧ y.port = w.port ∧ y.req = w.req := by
  rw [txn_posted, same] at there
  split at there
  next here =>
    cases there
    exact ⟨t, by rw [← here]; exact held, port, req⟩
  next => exact ⟨y, there, rfl, rfl⟩

theorem fixOutside_dispatched {o : RqId} (held : s.txn k = some t) (failed : r ≠ .ok) (origin : t.origin = .rq o)
    (running : (s.cq t.cq).state = .running) (room : s.comp.holding.length < Config.holdingCapacity)
    (quiet : ((offerPlace p (s.dispatched p k (t.fixed r 0 s.timebase))).port p).disablePending = false) :
    fixOutside p k r 0 (s.serving p k) = offerPlace p (s.dispatched p k (t.fixed r 0 s.timebase)) := by
  let x := t.fixed r 0 s.timebase
  let b := ((s.serving p k).cleared p).setSlot k (.txn x)
  have here : b.txn k = some x := (txn_setSlot ..).trans (if_pos rfl)
  have served : (b.port p).inService = some k := by
    refine (congrArg Port.inService (port_cleared (s := s.serving p k))).trans ?_
    rw [port_serving]
  have leaves := post_leaves served here running room
  calc fixOutside p k r 0 (s.serving p k) = serviceEnd p k b := fixOutside_serviceEnd held
    _ = post p k b := serviceEnd_post (x := x) ⟨o, origin⟩ (.inl failed) here
    _ = leaveList p _ := leaves
    _ = offerPlace p (s.dispatched p k x) := by
      rw [setSlot_setSlot]
      exact leaveList_offers quiet

end Sys2Proof.Machine

namespace Sys2Proof.Proofs

open Sys2Proof.Machine

/-- Settles O42: the first transaction goes by its mark, its port and what it writes; the place freed goes to the first
hold that waits for it. -/
theorem dispatchTakesTheFirst : Obligations.DispatchTakesTheFirst := by
  intro s p k l t run
  refine ⟨exec_dispatch_idle run, fun free quiet list held => ⟨fun r can why failed => ?fixed,
    fun r o q j v pre post origin mark failed running room order before hold ne here port plain fence space => ?placed,
    fun unmarked on sound => ?served⟩⟩
  all_goals rw [exec_dispatch run free quiet list held]
  case fixed =>
    rw [dispatchHead_fixes why]
    exact ⟨_, rfl, recordPosted_dispatch held failed can⟩
  case served =>
    refine ⟨fun d instance_of => ?_, fun request none_written => ?_, fun request written => ?_⟩
    · rw [dispatchHead_instance unmarked on sound instance_of, State.serving, modPort_modPort]
      rw [modTxn_of_txn (t := t) (by exact held)]
    · rw [dispatchHead_request unmarked on sound request, if_pos none_written, modTxn_of_txn (t := t) (by exact held)]
      rfl
    · rw [dispatchHead_request unmarked on sound request, if_neg written, modTxn_of_txn (t := t) (by exact held)]
      rfl
  case placed =>
    subst port
    have fixes := fixOutside_dispatched (p := v.port) held failed origin running room
    have own : (s.dispatched v.port k (t.fixed r 0 s.timebase)).port v.port = { s.port v.port with
        list := l, inService := none, pendingResult := none, outbound := [], inbound := [],
        stats := { (s.port v.port).stats with completed := (s.port v.port).stats.completed + 1 } } := by
      refine port_posted_self.trans ?_
      rw [port_cleared, port_serving, Port.left, list]
      rfl
    have queues : (s.dispatched v.port k (t.fixed r 0 s.timebase)).rq = s.rq := rfl
    have turn : (s.dispatched v.port k (t.fixed r 0 s.timebase)).fetch = s.fetch := rfl
    have names {i : SlotId} {y : Txn} := names_posted (x := t.fixed r 0 s.timebase) (v := (s.serving v.port k).cleared v.port)
      (p := v.port) (j := i) (y := y) held rfl rfl
    have there : (s.dispatched v.port k (t.fixed r 0 s.timebase)).txn j = some v :=
      txn_posted.trans ((if_neg ne.symm).trans here)
    rw [dispatchHead_fixes (.inl mark)]
    change ∀ {i y}, (s.dispatched v.port k (t.fixed r 0 s.timebase)).txn i = some y → _ at names
    generalize s.dispatched v.port k (t.fixed r 0 s.timebase) = d at *
    have passed (y : RqId) (hy : y ∈ pre) : d.waitsFor v.port y = false := by
      refine waitsFor_eq_false fun i w holds waits => ?_
      obtain ⟨y', earlier, port, req⟩ := names waits rfl
      rw [queues] at holds
      rw [port, req, queues]
      exact before y hy i y' holds earlier
    have places : offerPlace v.port d = placeHeld q j v d :=
      (offerPlace_examines (by rw [turn]; exact order) passed
        (waitsFor_of (by rw [queues]; exact hold) there rfl (by rw [queues]; exact fence))).trans
        (examineHold_places (by rw [queues]; exact hold) there (by rw [queues]; exact fence) (by rw [own]; exact space))
    obtain ⟨port, txn, queue, last, others⟩ := placeHeld_plain (s := d) (q := q) (j := j) plain
    rw [← places, own] at port
    rw [← places, queues] at queue others
    rw [← places] at txn last
    rw [fixes (by rw [port]; exact quiet)]
    exact ⟨_, rfl, by rw [port], txn, queue, last, others⟩

end Sys2Proof.Proofs
end

section
/-! SUPPORT. The attempt in progress: what acts on it, and how arbitration is lost (R78, R79). From them the statement
AttemptsOpen. -/

namespace Sys2Proof.Machine

variable {s v : State} {p : PortId} {q : RqId} {k : SlotId} {t : Txn} {r : Result} {d : Byte} {place : LossPlace}
  {starts : Bool}

/-! ### What acts on the attempt -/

theorem awake_self {f : State → State} (h : f s = s) : awake s f = s := (congrArg _ h).trans (ite_self s)

theorem withAttempt_none {f : Engine → SlotId → Txn → State → State} (h : (s.port p).eng.phase = .none) :
    withAttempt p f s = s := if_pos h

theorem withAttempt_eq {f : Engine → SlotId → Txn → State → State} (busy : (s.port p).eng.phase ≠ .none)
    (served : (s.port p).inService = some k) (held : s.txn k = some t) : withAttempt p f s = f (s.port p).eng k t s :=
  (if_neg busy).trans (withService_eq served held)

/-- An event whose condition the attempt does not meet does nothing. -/
theorem withAttempt_self {f : Engine → SlotId → Txn → State → State} (served : (s.port p).inService = some k)
    (held : s.txn k = some t) (h : f (s.port p).eng k t s = s) : withAttempt p f s = s := by
  by_cases none : (s.port p).eng.phase = .none
  · exact withAttempt_none none
  · exact (withAttempt_eq none served held).trans h

/-- The engine makes a START or a repeated START (R67, R68, R88). -/
theorem start_made (f : Engine → Engine) :
    touch p (driveLines p true ((modEng p f s).modPort p fun P => { P with busFree := false })) =
      s.modPort p fun P => { P with
        eng := f P.eng, busFree := false, sclDriven := true, sdaDriven := true, idleFrom := s.timebase,
        clockLowFrom := s.timebase, stuckDataFrom := s.timebase } := by
  unfold touch driveLines modEng
  rw [modPort_modPort, modPort_modPort, modPort_modPort]
  rfl

/-! ### Arbitration loss (R78, R79) -/

/-- The port whose engine has lost: its lines released, the loss counted, observing (R78). -/
def Port.lost (P : Port) (starts : Bool) (reached : List FaultReason) (now : Word) : Port :=
  { P with
    state := .observing, awaitAddr := starts, sclDriven := false, sdaDriven := false,
    stats := { P.stats with arbLosses := P.stats.arbLosses + 1 },
    eng := { P.eng with segment := P.eng.segmentUnderWay },
    tied := P.tied ++ reached, idleFrom := now, clockLowFrom := now, stuckDataFrom := now }

/-- The state once the engine of port `p` has lost, before its attempt ends. -/
def State.lost (s : State) (p : PortId) (starts : Bool) : State :=
  s.modPort p fun P => P.lost starts (s.timeoutsReached p) s.timebase

theorem port_lost : (s.lost p starts).port p = (s.port p).lost starts (s.timeoutsReached p) s.timebase :=
  (port_modPort ..).trans (if_pos rfl)

theorem onBus_lost : OnBus p s (s.lost p starts) := by
  refine ⟨rfl, ?_, ?_, ?_, ?_, ?_⟩ <;> rw [port_lost] <;> rfl

theorem retrying_setSlot {y : Slot} {now : Word} : (v.setSlot k y).retrying p k t now = v.retrying p k t now :=
  setSlot_setSlot (s := v.modPort p fun P => { P with eng := Engine.reset, inbound := [] }) k y _

/-- What the end of a lost attempt leaves of the port (R78). -/
theorem finished_lost {P Q : Port} {reached : List FaultReason} {now : Word} (h : (P.lost starts reached now).Finished Q) :
    Q.state = .observing ∧ Q.awaitAddr = starts ∧ Q.busFree = P.busFree ∧ Q.sclDriven = false ∧ Q.sdaDriven = false ∧
      Q.eng = Engine.reset ∧ Q.tied = P.tied ++ reached ∧ Q.stats.arbLosses = P.stats.arbLosses + 1 ∧
      Q.inStep = P.inStep ∧ Q.tgt = P.tgt :=
  ⟨congrArg Port.state h, congrArg Port.awaitAddr h, (congrArg Port.busFree h :), congrArg Port.sclDriven h,
    congrArg Port.sdaDriven h, congrArg Port.eng h, congrArg Port.tied h, congrArg (fun P => P.stats.arbLosses) h,
    (congrArg Port.inStep h :), (congrArg Port.tgt h :)⟩

theorem loseArbitration_eq : loseArbitration p place starts s =
    if (s.port p).eng.quiet then endQuiet p (s.lost p starts) else settleLoss p place (s.lost p starts) := by
  have lost : touch p ((tieTimeouts p s).modPort p fun P => { P with
      state := .observing, awaitAddr := starts, sclDriven := false, sdaDriven := false,
      stats := { P.stats with arbLosses := P.stats.arbLosses + 1 },
      eng := { P.eng with segment := P.eng.segmentUnderWay } }) = s.lost p starts := by
    unfold touch tieTimeouts
    rw [modPort_modPort, modPort_modPort]
    rfl
  unfold loseArbitration
  dsimp only
  rw [lost, port_lost]
  rfl

theorem loseArbitration_quiet (quiet : (s.port p).eng.quiet = true) :
    loseArbitration p place starts s = endQuiet p (s.lost p starts) := by
  rw [loseArbitration_eq, if_pos quiet]

section

variable (loud : (s.port p).eng.quiet = false)
include loud

/-- A loss with an outcome decided keeps it (R79). -/
theorem loseArbitration_decided {out : AttemptOutcome} (decided : (s.port p).eng.outcome = some out) :
    loseArbitration p place starts s = finishAttempt p out s.timebase (s.lost p starts) := by
  rw [loseArbitration_eq, if_neg (by rw [loud]; exact Bool.false_ne_true)]
  unfold settleLoss
  dsimp only
  rw [port_lost, show ((s.port p).lost starts (s.timeoutsReached p) s.timebase).eng.outcome = some out from decided]
  rfl

variable (undecided : (s.port p).eng.outcome = none) (served : (s.port p).inService = some k) (held : s.txn k = some t)
include undecided served held

theorem loseArbitration_settles : loseArbitration p place starts s = finishAttempt p (lossOutcome t place) s.timebase
    (if lossOutcome t place = .retry then (s.lost p starts).setSlot k (.txn { t with arbUsed := t.arbUsed + 1 })
      else s.lost p starts) := by
  rw [loseArbitration_eq, if_neg (by rw [loud]; exact Bool.false_ne_true)]
  unfold settleLoss
  dsimp only
  rw [port_lost, show ((s.port p).lost starts (s.timeoutsReached p) s.timebase).eng.outcome = none from undecided,
    show ((s.port p).lost starts (s.timeoutsReached p) s.timebase).inService = some k from served]
  dsimp only
  rw [show (s.lost p starts).txn k = some t from held]
  dsimp only
  rw [modTxn_of_txn (t := t) (by exact held)]
  rfl

/-- While an arbitration retry remains, a loss uses it (R12, R79). -/
theorem loseArbitration_retries (left : t.arbUsed < t.req.arbRetries.toNat) (free : (s.port p).disablePending = false) :
    loseArbitration p place starts s =
      (s.lost p starts).retrying p k { t with arbUsed := t.arbUsed + 1 } s.timebase := by
  have out : lossOutcome t place = .retry := if_pos left
  rw [loseArbitration_settles loud undecided served held, out, if_pos rfl,
    finishAttempt_retry (s := (s.lost p starts).setSlot k _) (t := { t with arbUsed := t.arbUsed + 1 })
      (onBus_lost.inService.trans served) ((txn_setSlot ..).trans (if_pos rfl)) (onBus_lost.pending.trans free)]
  exact retrying_setSlot

/-- With its arbitration retries used up, a lost attempt ends ARB_LOST (R78, R80). -/
theorem loseArbitration_ends (used : t.req.arbRetries.toNat ≤ t.arbUsed) :
    loseArbitration p place starts s =
      finishAttempt p (.result .arbLost (lossDetail place)) s.timebase (s.lost p starts) := by
  have out : lossOutcome t place = .result .arbLost (lossDetail place) := if_neg (Nat.not_lt.mpr used)
  rw [loseArbitration_settles loud undecided served held, out, if_neg nofun]

end

theorem segmentUnderWay_of_not {E : Engine} (h : E.phase ≠ .opening ∨ E.restart = false) : E.segmentUnderWay = E.segment := by
  refine if_neg fun both => ?_
  obtain ⟨opening, restart⟩ := Bool.and_eq_true_iff.mp both
  rcases h with other | start
  · exact other (of_decide_eq_true opening)
  · rw [start] at restart
    cases restart

theorem segmentUnderWay_of_restart {E : Engine} (opening : E.phase = .opening) (restart : E.restart = true) :
    E.segmentUnderWay = E.segment + 1 := if_pos (Bool.and_eq_true_iff.mpr ⟨decide_eq_true opening, restart⟩)

end Sys2Proof.Machine

namespace Sys2Proof.Proofs

open Sys2Proof.Machine

/-- Settles O45: each opening acts in its phase alone; one not won is lost there. -/
theorem attemptsOpen : Obligations.AttemptsOpen := by
  intro s p k t served held
  have begins (run : Running s) : exec (.attemptBegin p) s = .next (beginAttempt p s) :=
    congrArg Host.Outcome.next (whenRunning_of_running run)
  have opens (run : Running s) : exec (.segmentOpen p) s = .next (Machine.openSegment p s) :=
    congrArg Host.Outcome.next (whenRunning_of_running run)
  have starts (won : Bool) (out : Awake s) : exec (.masterStart p won) s = .next (makeStart p won s) :=
    congrArg Host.Outcome.next (awake_of_awake out)
  have restarts (won : Bool) (out : Awake s) : exec (.repeatedStart p won) s = .next (makeRestart p won s) :=
    congrArg Host.Outcome.next (awake_of_awake out)
  refine ⟨fun run => ⟨fun ready idle free none => ?_, fun not => ?_, fun between idle free => ?_, fun not => ?_⟩,
    fun out opening => ⟨fun start => ?_, fun restart => ?_⟩, fun not won => ?_, fun not won => ?_,
    fun c place segment out opening which undecided loud quiet => ?_⟩
  · rw [begins run, beginAttempt, withService_eq served held, if_pos (by simp [ready, idle, free, none]),
      modTxn_of_txn (t := t) (by exact held)]
  · rw [begins run, beginAttempt, withService_eq served held, if_neg]
    rcases not with h | h | h <;> simp [h]
  · rw [opens run, Machine.openSegment, withAttempt_eq (by rw [between]; nofun) served held, if_pos (by simp [between, idle, free])]
    unfold modEng
    rw [modPort_modPort]
  · rw [opens run, Machine.openSegment, withAttempt_self served held]
    refine if_neg ?_
    rcases not with h | h | h <;> simp [h]
  · rw [starts true out, makeStart, withAttempt_eq (by rw [opening]; nofun) served held, if_pos (by simp [opening, start]),
      if_pos rfl, modTxn_of_txn (t := t) (by exact held)]
    exact congrArg (fun v : State => Host.Outcome.next (v.setSlot k
      (.txn { t with started := some (t.started.getD s.timebase) }))) (start_made _)
  · rw [restarts true out, makeRestart, withAttempt_eq (by rw [opening]; nofun) served held,
      if_pos (by simp [opening, restart]), if_pos rfl]
    exact congrArg Host.Outcome.next (start_made _)
  · refine congrArg Host.Outcome.next (awake_self (withAttempt_self served held (if_neg ?_)))
    rcases not with h | h <;> simp [h]
  · refine congrArg Host.Outcome.next (awake_self (withAttempt_self served held (if_neg ?_)))
    rcases not with h | h <;> simp [h]
  · have loses : exec c s = .next (loseArbitration p place false s) ∧ (s.port p).eng.segmentUnderWay = segment := by
      rcases which with ⟨same, start⟩ | ⟨same, restart⟩ <;> cases same
      · refine ⟨?_, segmentUnderWay_of_not (.inr start)⟩
        rw [starts false out, makeStart, withAttempt_eq (by rw [opening]; nofun) served held,
          if_pos (by simp [opening, start])]
        rfl
      · refine ⟨?_, segmentUnderWay_of_restart opening restart⟩
        rw [restarts false out, makeRestart, withAttempt_eq (by rw [opening]; nofun) served held,
          if_pos (by simp [opening, restart])]
        rfl
    obtain ⟨loses, way⟩ := loses
    rw [loses]
    refine ⟨fun left => ?_, fun used unread can => ?_⟩
    · rw [loseArbitration_retries loud undecided served held left quiet]
      unfold State.retrying State.lost
      rw [modPort_modPort]
      rfl
    · rw [loseArbitration_ends loud undecided served held used]
      obtain ⟨posted, finished, -⟩ := (onBus_lost (s := s) (starts := false)).posts (r := .arbLost) (d := lossDetail place)
        (now := s.timebase) served held (by rw [port_lost]; exact unread) (.inl nofun) can
      have done : ({ t.finished ((s.lost p false).port p).eng .arbLost (lossDetail place) s.timebase with
          state := .posting } : Txn) = { t with
            state := .posting, started := some (t.started.getD s.timebase), result := .arbLost,
            detail := lossDetail place, segIndex := segment,
            writeCount := (s.port p).eng.writeCount, readCount := 0, endTime := s.timebase } := by
        rw [port_lost, ← way, ← unread]
        rfl
      rw [done] at posted
      rw [port_lost] at finished
      obtain ⟨state, await, verdict, scl, sda, eng, tied, losses, -⟩ := finished_lost finished
      exact ⟨_, rfl, posted, state, await, verdict, scl, sda, eng, tied, losses⟩

end Sys2Proof.Proofs
end

section
/-! SUPPORT. The bytes the master engine sends and receives (R72 to R76, R82, R83). From them the statements BytesAreSent
and BytesAreReceived. -/

namespace Sys2Proof.Machine

variable {s v : State} {p : PortId} {k : SlotId} {t : Txn} {E : Engine} {r : Request} {g : Segment} {b n : Byte}
  {out : AttemptOutcome}

/-! ### What a stop changes in the engine's conduct (R82, R83, R85) -/

/-- The engine goes on: nothing is decided and no stop is asked for. -/
def Engine.goesOn (E : Engine) : Prop := E.stopReq = none ∧ E.quiet = false ∧ E.outcome = none

/-- The engine is to stop at its next byte boundary, and nothing more is decided (R82, R85). -/
def Engine.halting (E : Engine) : Prop := E.quiet = true ∨ E.stopReq ≠ none ∧ E.outcome ≠ none

theorem Engine.goesOn.stops (h : E.goesOn) : E.stops = false := by
  obtain ⟨unasked, loud, -⟩ := h
  rw [Engine.stops, unasked, loud]
  rfl

theorem Engine.goesOn.settle (h : E.goesOn) : E.settle out = { E with outcome := some out } := by
  obtain ⟨-, loud, undecided⟩ := h
  refine if_neg ?_
  rw [loud, undecided]
  exact Bool.false_ne_true

theorem Engine.halting.stops (h : E.halting) : E.stops = true := by
  rcases h with quiet | ⟨asked, -⟩
  · rw [Engine.stops, quiet, Bool.true_or]
  · rw [Engine.stops, Option.isSome_iff_ne_none.mpr asked, Bool.or_true]

theorem Engine.halting.decided (h : E.halting) : (E.quiet || E.outcome.isSome) = true := by
  rcases h with quiet | ⟨-, decided⟩
  · rw [quiet, Bool.true_or]
  · rw [Option.isSome_iff_ne_none.mpr decided, Bool.or_true]

theorem Engine.halting.settle (h : E.halting) : E.settle out = E := if_pos h.decided

theorem advance_eq {chk : Bool} : E.advance chk b = { E with crc := if chk then crcByte E.crc b else E.crc } := by
  cases chk <;> rfl

theorem writes_iff : g.writes = true ↔ g.kind = .write := by
  unfold Segment.writes
  cases g.kind <;> simp

theorem writes_eq_false (h : g.kind ≠ .write) : g.writes = false := Bool.eq_false_iff.mpr fun e => h (writes_iff.mp e)

theorem addressByte_eq : g.addressByte = g.addr ++ (if g.kind = .write then 0#1 else 1#1) := by
  unfold Segment.addressByte
  by_cases h : g.kind = .write
  · rw [if_pos h, if_pos (writes_iff.mpr h)]
  · rw [if_neg h, if_neg fun e => h (writes_iff.mp e)]

/-! ### Bytes sent (R72, R73) -/

/-- The port after a byte has been sent and its acknowledge sampled. -/
def Port.sent (P : Port) (b : Byte) (nacks : Stats → Stats) (E : Engine) (now : Word) : Port :=
  { P with
    lastSent := some b, sclDriven := true, sdaDriven := false, idleFrom := now, clockLowFrom := now,
    stuckDataFrom := now, stats := nacks P.stats, eng := E }

/-- The state after a byte has been sent. -/
def State.sent (s : State) (p : PortId) (b : Byte) (nacks : Stats → Stats) (E : Engine) : State :=
  s.modPort p fun P => P.sent b nacks E s.timebase

theorem port_sent {f : Stats → Stats} : (s.sent p b f E).port p = (s.port p).sent b f E s.timebase :=
  (port_modPort ..).trans (if_pos rfl)

theorem byte_acknowledged : driveLines p false (modEng p (fun _ => E)
    (touch p (s.modPort p fun P => { P with lastSent := some b }))) = s.sent p b id E := by
  unfold driveLines modEng touch
  rw [modPort_modPort, modPort_modPort, modPort_modPort]
  rfl

theorem byte_refused {f : Stats → Stats} : driveLines p false (modEng p (fun _ => E)
    ((touch p (s.modPort p fun P => { P with lastSent := some b })).modStats p f)) = s.sent p b f E := by
  unfold driveLines modEng touch
  rw [modStats_eq, modPort_modPort, modPort_modPort, modPort_modPort, modPort_modPort]
  rfl

section

variable (up : Awake s) (served : (s.port p).inService = some k) (held : s.txn k = some t)
include up served held

theorem exec_addressByte_acknowledged (addressing : (s.port p).eng.phase = .addressing) :
    exec (.masterAddressByte p true) s = .next (s.sent p (t.req.seg (s.port p).eng.segment).addressByte id
      (((s.port p).eng.advance t.req.chk (t.req.seg (s.port p).eng.segment).addressByte).addressed t.req)) := by
  refine congrArg Host.Outcome.next ((awake_of_awake up).trans ?_)
  rw [addressByteSent, withAttempt_eq (by rw [addressing]; nofun) served held, if_pos addressing]
  dsimp only
  rw [if_pos rfl, byte_acknowledged]

/-- A refused address byte closes the attempt; a retry decided by it is counted (R12, R72). -/
theorem exec_addressByte_refused (addressing : (s.port p).eng.phase = .addressing)
    (is : (s.port p).eng.advance t.req.chk (t.req.seg (s.port p).eng.segment).addressByte = E)
    (goes : s.sent p (t.req.seg (s.port p).eng.segment).addressByte (fun c => { c with addrNacks := c.addrNacks + 1 })
      (E.settle (nackOutcome t)).close = v) :
    exec (.masterAddressByte p false) s = .next
      (if !E.quiet && E.outcome.isNone && nackOutcome t == .retry then
        v.setSlot k (.txn { t with nackUsed := t.nackUsed + 1 })
      else v) := by
  have still : v.txn k = some t := by
    rw [← goes]
    exact held
  refine congrArg Host.Outcome.next ((awake_of_awake up).trans ?_)
  rw [addressByteSent, withAttempt_eq (by rw [addressing]; nofun) served held, if_pos addressing]
  dsimp only
  rw [if_neg Bool.false_ne_true, byte_refused, is, goes, modTxn_of_txn still]

theorem exec_dataByte {ack : Bool} (sending : (s.port p).eng.phase = .sending)
    (more : (s.port p).eng.bytePos < (t.req.seg (s.port p).eng.segment).length.toNat) :
    exec (.masterDataByteSent p ack) s = .next
      (let b := byteAt (s.port p).outbound (outboundStart t.req (s.port p).eng.segment + (s.port p).eng.bytePos)
       s.sent p b (if ack then id else fun c => { c with dataNacks := c.dataNacks + 1 })
        (((s.port p).eng.advance t.req.chk b).sent t.req ack)) := by
  refine congrArg Host.Outcome.next ((awake_of_awake up).trans ?_)
  rw [dataByteSent, withAttempt_eq (by rw [sending]; nofun) served held,
    if_pos (Bool.and_eq_true_iff.mpr ⟨decide_eq_true sending, decide_eq_true more⟩)]
  cases ack
  · exact byte_refused (f := fun c => { c with dataNacks := c.dataNacks + 1 })
  · exact byte_acknowledged

end

/-! ### The engine after a byte it sends -/

theorem addressed_write (on : E.stops = false) (write : (r.seg E.segment).kind = .write)
    (some_length : (r.seg E.segment).length ≠ 0) : E.addressed r = { E with phase := .sending } := by
  unfold Engine.addressed
  dsimp only
  rw [if_pos (writes_iff.mpr write), on, if_neg Bool.false_ne_true, if_neg some_length]

theorem addressed_empty (on : E.stops = false) (write : (r.seg E.segment).kind = .write)
    (empty : (r.seg E.segment).length = 0) : E.addressed r = E.closeSegment (r.seg E.segment) := by
  unfold Engine.addressed
  dsimp only
  rw [if_pos (writes_iff.mpr write), on, if_neg Bool.false_ne_true, if_pos empty]

theorem addressed_stops (stops : E.stops = true) (write : (r.seg E.segment).kind = .write) : E.addressed r = E.close := by
  unfold Engine.addressed
  dsimp only
  rw [if_pos (writes_iff.mpr write), if_pos stops]

theorem addressed_read (read : (r.seg E.segment).kind ≠ .write) : E.addressed r = { E with phase := .receiving } := by
  unfold Engine.addressed
  dsimp only
  rw [if_neg fun e => read (writes_iff.mp e)]

/-- The engine after a data byte that lets it go on (R73). -/
theorem sent_goes_on {ack : Bool} (on : E.stops = false) (h : ack = true ∨ (r.seg E.segment).ignoreNack = true) :
    E.sent r ack =
      if E.bytePos + 1 < (r.seg E.segment).length.toNat then
        { E with writeCount := E.writeCount + (if ack then 1 else 0), bytePos := E.bytePos + 1 }
      else Engine.endSegment { E with writeCount := E.writeCount + (if ack then 1 else 0), bytePos := E.bytePos + 1 } r := by
  unfold Engine.sent
  dsimp only
  rw [on]
  rcases h with rfl | ignores
  · rfl
  · rw [ignores]
    cases ack <;> rfl

theorem sent_refused (on : E.stops = false) (strict : (r.seg E.segment).ignoreNack = false) :
    E.sent r false = (E.settle (.result .dataNack 0)).close := by
  unfold Engine.sent
  dsimp only
  rw [on, strict]
  rfl

theorem sent_stops {ack : Bool} (stops : E.stops = true) : E.sent r ack =
    Engine.close (if ack then { E with writeCount := E.writeCount + 1, bytePos := E.bytePos + 1 } else E) := by
  unfold Engine.sent
  dsimp only
  rw [stops, if_pos rfl, Bool.not_true, Bool.and_false, if_neg Bool.false_ne_true]

/-! ### Bytes received (R74 to R76) -/

/-- The port after a byte has been received and acknowledged, or not. -/
def Port.received (P : Port) (segment : Nat) (b : Byte) (ack : Bool) (E : Engine) (now : Word) : Port :=
  { P with
    inbound := P.inbound ++ [(segment, b)], lastAck := some ack, sclDriven := true, sdaDriven := false, idleFrom := now,
    clockLowFrom := now, stuckDataFrom := now, eng := E }

theorem byte_received {n : Nat} {ack : Bool} :
    driveLines p false (giveAck p ack (modEng p (fun _ => E) (storeByte p n b (touch p s)))) =
      s.modPort p fun P => P.received n b ack E s.timebase := by
  unfold driveLines giveAck modEng storeByte touch
  rw [modPort_modPort, modPort_modPort, modPort_modPort, modPort_modPort]
  rfl

theorem received_eq {chk : Bool} : E.received chk b = { E with
    crc := if chk then crcByte E.crc b else E.crc, readCount := E.readCount + 1, bytePos := E.bytePos + 1 } := by
  unfold Engine.received
  rw [advance_eq]

theorem awaitsCount_iff : E.awaitsCount g = true ↔ g.kind = .readCounted ∧ E.countRecv = none := by
  unfold Engine.awaitsCount
  rw [Bool.and_eq_true, beq_iff_eq, Option.isNone_iff_eq_none]

section

variable (up : Awake s) (served : (s.port p).inService = some k) (held : s.txn k = some t)
include up served held

theorem exec_byteReceived (receiving : (s.port p).eng.phase = .receiving)
    (data : (t.req.seg (s.port p).eng.segment).kind ≠ .readCounted ∨ (s.port p).eng.countRecv ≠ none)
    (is : (s.port p).eng.received t.req.chk b = E) : exec (.masterByteReceived p b) s = .next
      (s.modPort p fun P => P.received (s.port p).eng.segment b (E.acknowledges t.req) (E.afterReceived t.req) s.timebase) := by
  have plain : (s.port p).eng.awaitsCount (t.req.seg (s.port p).eng.segment) = false :=
    Bool.eq_false_iff.mpr fun awaits => data.elim (· (awaitsCount_iff.mp awaits).1) (· (awaitsCount_iff.mp awaits).2)
  refine congrArg Host.Outcome.next ((awake_of_awake up).trans ?_)
  rw [byteReceived, withAttempt_eq (by rw [receiving]; nofun) served held, if_pos (by rw [receiving, plain]; rfl)]
  dsimp only
  rw [byte_received, is]

theorem exec_countByte (receiving : (s.port p).eng.phase = .receiving)
    (counted : (t.req.seg (s.port p).eng.segment).kind = .readCounted) (first : (s.port p).eng.countRecv = none)
    (is : { (s.port p).eng.received t.req.chk b with countRecv := some b } = E) : exec (.countByte p b) s = .next
      (s.modPort p fun P =>
        P.received (s.port p).eng.segment b (E.acknowledgesCount t.req b) (E.afterCount t.req b) s.timebase) := by
  have awaits := awaitsCount_iff.mpr ⟨counted, first⟩
  refine congrArg Host.Outcome.next ((awake_of_awake up).trans ?_)
  rw [countReceived, withAttempt_eq (by rw [receiving]; nofun) served held, if_pos (by rw [receiving, awaits]; rfl)]
  dsimp only
  rw [byte_received, is]

/-- The check byte of a last WRITE is sent (R17, R76). -/
theorem exec_checkByte_sent {ack : Bool} (checking : (s.port p).eng.phase = .checking)
    (write : (t.req.seg (s.port p).eng.segment).kind = .write) : exec (.checkByte p ack b) s = .next
      (s.sent p (s.port p).eng.crc (if ack then id else fun c => { c with dataNacks := c.dataNacks + 1 })
        ((s.port p).eng.settle (.result (if ack then .ok else .dataNack) 0)).close) := by
  refine congrArg Host.Outcome.next ((awake_of_awake up).trans ?_)
  rw [checkByteDone, withAttempt_eq (by rw [checking]; nofun) served held, if_pos checking]
  dsimp only
  rw [if_pos (writes_iff.mpr write)]
  unfold driveLines modEng touch State.sent
  cases ack
  · rw [if_neg Bool.false_ne_true, modStats_eq, modPort_modPort, modPort_modPort, modPort_modPort, modPort_modPort]
    exact modPort_congr _ _ _ rfl
  · rw [if_pos rfl, modPort_modPort, modPort_modPort, modPort_modPort]
    exact modPort_congr _ _ _ rfl

/-- The check byte of a last reading segment is received and refused (R18, R76). -/
theorem exec_checkByte_received {ack : Bool} (checking : (s.port p).eng.phase = .checking)
    (read : (t.req.seg (s.port p).eng.segment).kind ≠ .write) : exec (.checkByte p ack b) s = .next
      (s.modPort p fun P => { P with
        lastAck := some false, sclDriven := true, sdaDriven := false, idleFrom := s.timebase,
        clockLowFrom := s.timebase, stuckDataFrom := s.timebase,
        eng := (P.eng.settle (.result (if b = P.eng.crc then .ok else .checkFail) 0)).close }) := by
  refine congrArg Host.Outcome.next ((awake_of_awake up).trans ?_)
  rw [checkByteDone, withAttempt_eq (by rw [checking]; nofun) served held, if_pos checking]
  dsimp only
  rw [if_neg (by rw [writes_eq_false read]; exact Bool.false_ne_true)]
  unfold driveLines giveAck modEng touch
  rw [modPort_modPort, modPort_modPort, modPort_modPort]

end

/-! ### The engine after a byte it receives -/

theorem afterReceived_more (on : E.stops = false) (more : E.bytePos < E.expects (r.seg E.segment)) :
    E.acknowledges r = true ∧ E.afterReceived r = E := by
  refine ⟨?_, ?_⟩
  · rw [Engine.acknowledges, on, decide_eq_true more]
    rfl
  · rw [Engine.afterReceived, on, if_neg Bool.false_ne_true, if_pos more]

theorem afterReceived_last (on : E.stops = false) (full : E.expects (r.seg E.segment) ≤ E.bytePos) :
    E.acknowledges r = (r.chk && r.isLast E.segment) ∧ E.afterReceived r = E.endSegment r := by
  refine ⟨?_, ?_⟩
  · rw [Engine.acknowledges, on, decide_eq_false (Nat.not_lt.mpr full)]
    rfl
  · rw [Engine.afterReceived, on, if_neg Bool.false_ne_true, if_neg (Nat.not_lt.mpr full)]

theorem afterReceived_stops (stops : E.stops = true) : E.acknowledges r = false ∧ E.afterReceived r = E.close := by
  refine ⟨?_, ?_⟩
  · rw [Engine.acknowledges, stops]
    rfl
  · rw [Engine.afterReceived, if_pos stops]

theorem afterCount_over (on : E.goesOn) (above : (r.seg E.segment).length.toNat - 1 < n.toNat) :
    E.acknowledgesCount r n = false ∧
      E.afterCount r n = { E with phase := .closing, outcome := some (.result .overlength 0) } := by
  have long : overlength (r.seg E.segment) n = true := decide_eq_true above
  refine ⟨?_, ?_⟩
  · rw [Engine.acknowledgesCount, long, Bool.not_true, Bool.and_false, Bool.false_and]
  · rw [Engine.afterCount, on.stops, if_neg Bool.false_ne_true, if_pos long, on.settle]
    rfl

theorem afterCount_some (on : E.stops = false) (fits : n.toNat ≤ (r.seg E.segment).length.toNat - 1) (some_follow : n ≠ 0) :
    E.acknowledgesCount r n = true ∧ E.afterCount r n = E := by
  have short : overlength (r.seg E.segment) n = false := decide_eq_false (Nat.not_lt.mpr fits)
  refine ⟨?_, ?_⟩
  · rw [Engine.acknowledgesCount, on, short, bne_iff_ne.mpr some_follow]
    rfl
  · rw [Engine.afterCount, on, if_neg Bool.false_ne_true, short, if_neg Bool.false_ne_true, if_neg some_follow]

theorem afterCount_zero (on : E.stops = false) (none_follow : n = 0) :
    E.acknowledgesCount r n = (r.chk && r.isLast E.segment) ∧ E.afterCount r n = E.endSegment r := by
  subst none_follow
  have short : overlength (r.seg E.segment) 0 = false := decide_eq_false (Nat.not_lt_zero _)
  refine ⟨?_, ?_⟩
  · rw [Engine.acknowledgesCount, on, short]
    rfl
  · rw [Engine.afterCount, on, if_neg Bool.false_ne_true, short, if_neg Bool.false_ne_true, if_pos rfl]

theorem afterCount_stops (stops : E.stops = true) : E.acknowledgesCount r n = false ∧ E.afterCount r n = E.close := by
  refine ⟨?_, ?_⟩
  · rw [Engine.acknowledgesCount, stops]
    rfl
  · rw [Engine.afterCount, if_pos stops]

end Sys2Proof.Machine

namespace Sys2Proof.Proofs

open Sys2Proof.Machine

/-- Settles O46: the byte goes out, and the engine goes on or stops after it. -/
theorem bytesAreSent : Obligations.BytesAreSent := by
  intro s p k t ack up served held E g sent check closed ended
  have address := exec_addressByte_acknowledged up served held
  have refused {F : Engine} {v : State} := exec_addressByte_refused (E := F) (v := v) up served held
  have data {ack : Bool} := exec_dataByte (ack := ack) up served held
  rw [addressByte_eq] at address refused
  refine ⟨fun unasked loud undecided => ⟨fun addressing => ?_, fun sending more => ?_⟩, fun halts => ⟨fun addressing => ?_,
    fun sending more => ?_⟩⟩
  · intro b E₁
    have on : E₁.goesOn := ⟨unasked, loud, undecided⟩
    have is : E.advance t.req.chk b = E₁ := advance_eq
    have goes := address addressing
    rw [is] at goes
    have counts : (!E₁.quiet && E₁.outcome.isNone) = true := by
      rw [show E₁.quiet = false from loud, show E₁.outcome = none from undecided]
      rfl
    refine ⟨?_, ?_⟩
    · rintro rfl
      refine ⟨fun write some_length => ?_, fun write empty => ?_, fun read => ?_⟩
      · rw [goes, addressed_write on.stops write some_length]
        rfl
      · rw [goes, addressed_empty on.stops write empty]
        rfl
      · rw [goes, addressed_read (E := E₁) read]
        rfl
    · rintro rfl
      refine ⟨fun left => ?_, fun used => ?_⟩
      · have decides : nackOutcome t = .retry := if_pos left
        rw [refused addressing is rfl, counts, decides, on.settle]
        rfl
      · have decides : nackOutcome t = .result .addrNack 0 := if_neg (Nat.not_lt.mpr used)
        rw [refused addressing is rfl, counts, decides, on.settle]
        rfl
  · intro b E₁
    have on : (E.advance t.req.chk b).goesOn := by
      rw [advance_eq]
      exact ⟨unasked, loud, undecided⟩
    have same : E.advance t.req.chk b = { E with crc := check b } := advance_eq
    refine ⟨?_, ?_, ?_⟩
    · rintro rfl
      rw [data sending more]
      dsimp only
      rw [sent_goes_on on.stops (.inl rfl), same]
      rfl
    · rintro rfl ignores
      rw [data sending more]
      dsimp only
      rw [sent_goes_on on.stops (.inr (by rw [same]; exact ignores)), same]
      rfl
    · rintro rfl strict
      rw [data sending more]
      dsimp only
      rw [sent_refused on.stops (by rw [same]; exact strict), on.settle, same]
      rfl
  · intro b E₁
    have halts : E₁.halting := halts
    have is : E.advance t.req.chk b = E₁ := advance_eq
    refine ⟨?_, ?_⟩
    · have goes := address addressing
      rw [is] at goes
      rw [goes]
      by_cases write : g.kind = .write
      · have closes : (if g.kind = .write then Phase.closing else .receiving) = .closing := if_pos write
        rw [addressed_stops halts.stops write, closes]
        rfl
      · have receives : (if g.kind = .write then Phase.closing else .receiving) = .receiving := if_neg write
        rw [addressed_read (E := E₁) write, receives]
        rfl
    · have settled : (!E₁.quiet && E₁.outcome.isNone) = false := by
        rw [← Option.not_isSome, ← Bool.not_or, halts.decided]
        rfl
      rw [refused addressing is rfl, settled, halts.settle]
      rfl
  · intro b E₁
    have halts : (E.advance t.req.chk b).halting := by
      rw [advance_eq]
      exact halts
    have same : E.advance t.req.chk b = { E with crc := check b } := advance_eq
    refine ⟨?_, ?_⟩
    · rw [data sending more]
      dsimp only
      rw [sent_stops halts.stops, same]
      rfl
    · rw [data sending more]
      dsimp only
      rw [sent_stops halts.stops, same]
      rfl

/-- Settles O47: the byte comes in, and the engine goes on or stops after it. -/
theorem bytesAreReceived : Obligations.BytesAreReceived := by
  intro s p k t b up served held E g last ended received E₁ total
  have data {F : Engine} := exec_byteReceived (b := b) (E := F) up served held
  have count {F : Engine} := exec_countByte (b := b) (E := F) up served held
  have sends {ack : Bool} := exec_checkByte_sent (b := b) (ack := ack) up served held
  have receives {ack : Bool} := exec_checkByte_received (b := b) (ack := ack) up served held
  have is : E.received t.req.chk b = E₁ := received_eq
  have others {f : Port → Port} (r : PortId) (h : r ≠ p) : (s.modPort p f).port r = s.port r :=
    (port_modPort ..).trans (if_neg h.symm)
  have own {f : Port → Port} : (s.modPort p f).port p = f (s.port p) := (port_modPort ..).trans (if_pos rfl)
  refine ⟨fun unasked loud undecided => ⟨fun receiving plain => ⟨fun more => ?_, fun full => ?_⟩,
    fun receiving counted first => ?_, fun checking ack => ⟨fun write => ?_, fun read => ?_⟩⟩,
    fun halts => ⟨fun receiving plain => ?_, fun receiving counted first => ?_, fun checking ack => ?_⟩⟩
  · have on : E₁.goesOn := ⟨unasked, loud, undecided⟩
    obtain ⟨ack, after⟩ := afterReceived_more (r := t.req) on.stops (by exact more)
    rw [data receiving plain is, ack, after]
    rfl
  · have on : E₁.goesOn := ⟨unasked, loud, undecided⟩
    obtain ⟨ack, after⟩ := afterReceived_last (r := t.req) on.stops (by exact full)
    rw [data receiving plain is, ack, after]
    rfl
  · intro E₂
    have on : E₂.goesOn := ⟨unasked, loud, undecided⟩
    have is₂ : { E.received t.req.chk b with countRecv := some b } = E₂ := by rw [is]
    rw [count receiving counted first is₂]
    refine ⟨fun above => ?_, fun fits some_follow => ?_, fun none_follow => ?_⟩
    · obtain ⟨ack, after⟩ := afterCount_over (r := t.req) on above
      rw [ack, after]
      rfl
    · obtain ⟨ack, after⟩ := afterCount_some (r := t.req) on.stops fits some_follow
      rw [ack, after]
      rfl
    · obtain ⟨ack, after⟩ := afterCount_zero (r := t.req) on.stops none_follow
      rw [ack, after]
      rfl
  · have on : E.goesOn := ⟨unasked, loud, undecided⟩
    rw [sends checking write, on.settle]
    refine ⟨_, rfl, ?_, ?_, ?_, ?_, rfl, others⟩
    all_goals rw [port_sent]
    case refine_4 => cases ack <;> simp [Port.sent]
    all_goals rfl
  · have on : E.goesOn := ⟨unasked, loud, undecided⟩
    rw [receives checking read]
    refine ⟨_, rfl, ?_, ?_, ?_, ?_, rfl, others⟩
    all_goals rw [own]
    exact congrArg Engine.close on.settle
  · have stops : E₁.stops = true := Engine.halting.stops (E := E) halts
    obtain ⟨ack, after⟩ := afterReceived_stops (r := t.req) stops
    rw [data receiving plain is, ack, after]
    rfl
  · have stops : Engine.stops { E₁ with countRecv := some b } = true := Engine.halting.stops (E := E) halts
    obtain ⟨ack, after⟩ := afterCount_stops (r := t.req) (n := b) stops
    rw [count receiving counted first (by rw [is]), ack, after]
    rfl
  · have halts : E.halting := halts
    by_cases write : g.kind = .write
    · rw [sends checking write, halts.settle]
      refine ⟨_, rfl, ?_, ?_, fun _ => ⟨?_, ?_⟩, fun read => absurd write read, rfl, others⟩
      all_goals rw [port_sent]
      case refine_4 => cases ack <;> simp [Port.sent]
      all_goals rfl
    · rw [receives checking write]
      refine ⟨_, rfl, ?_, ?_, fun isIt => absurd isIt write, fun _ => ⟨?_, ?_⟩, rfl, others⟩
      all_goals rw [own]
      exact congrArg Engine.close halts.settle

end Sys2Proof.Proofs
end

section
/-! SUPPORT. The master engine's STOP (R69, R77, R81): the port it leaves, and the attempt it ends. -/

namespace Sys2Proof.Machine

variable {s v u : State} {p : PortId} {q : RqId} {k : SlotId} {t x : Txn} {E : Engine} {r : Request} {w : Result} {d : Byte}

/-- Where the engine may make its STOP (R69, R82). -/
theorem mayStop_iff : E.mayStop r = true ↔ E.phase = .closing ∨ (E.stopReq ≠ none ∨ E.quiet = true) ∧
    (E.phase = .sending ∨ E.phase = .checking ∧ (r.seg E.segment).kind = .write) := by
  unfold Engine.mayStop Engine.stops
  simp only [Bool.or_eq_true, Bool.and_eq_true, beq_iff_eq, writes_iff, Option.isSome_iff_ne_none]
  rw [or_comm (a := E.quiet = true)]

theorem phase_of_mayStop (h : E.mayStop r = true) : E.phase ≠ .none := by
  intro e
  rcases mayStop_iff.mp h with c | ⟨-, c | ⟨c, -⟩⟩ <;> rw [e] at c <;> cases c

/-! ### The port after the STOP -/

/-- The port after the engine's STOP: IDLE in step, its lines released, the monitor FREE (R69, R77). -/
def Port.stopMade (P : Port) (reached : List FaultReason) (now : Word) : Port :=
  { P with
    sclDriven := false, sdaDriven := false, tied := P.tied ++ reached, idleFrom := now, clockLowFrom := now,
    stuckDataFrom := now, state := .idle, inStep := true, busFree := true, awaitAddr := false, reason := none,
    enabling := false }

/-- The state after the engine of port `p` has made its STOP, before its attempt ends. -/
def State.stopMade (s : State) (p : PortId) : State := enterIdle p (releaseLines p (touch p (tieTimeouts p s)))

section

variable (told : (s.port p).tgt.disableTold = false)
include told

theorem stopMade_completes : s.stopMade p = completeIf (.port p .enable) .success 0
    (s.modPort p fun P => P.stopMade (s.timeoutsReached p) s.timebase) := by
  have fused : (releaseLines p (touch p (tieTimeouts p s))).modPort p (fun P => { P with
      state := .idle, inStep := true, busFree := true, awaitAddr := false, reason := none, enabling := false,
      clockLowFrom := s.timebase, stuckDataFrom := s.timebase }) =
      s.modPort p fun P => P.stopMade (s.timeoutsReached p) s.timebase := by
    unfold releaseLines touch tieTimeouts
    rw [modPort_modPort, modPort_modPort, modPort_modPort]
    rfl
  have free : ((completeIf (.port p .enable) .success 0
      (s.modPort p fun P => P.stopMade (s.timeoutsReached p) s.timebase)).port p).tgt.disableTold = false := by
    rw [completeIf_port, port_modPort, if_pos rfl]
    exact told
  unfold State.stopMade enterIdle
  dsimp only
  rw [show (releaseLines p (touch p (tieTimeouts p s))).timebase = s.timebase from rfl, fused]
  exact if_neg (by rw [free]; exact Bool.false_ne_true)

theorem port_stopMade : (s.stopMade p).port p = (s.port p).stopMade (s.timeoutsReached p) s.timebase := by
  rw [stopMade_completes told, completeIf_port, port_modPort, if_pos rfl]

theorem stopMade_eq : s.stopMade p = { s with ports := (s.stopMade p).ports, mgmt := (s.stopMade p).mgmt } := by
  rw [stopMade_completes told, completeIf_eq]
  rfl

theorem stopMade_time : (s.stopMade p).timebase = s.timebase := by rw [stopMade_eq told]

theorem onBus_stopMade : OnBus p s (s.stopMade p) := by
  refine ⟨stopMade_eq told, ?_, ?_, ?_, ?_, ?_⟩ <;> rw [port_stopMade told] <;> rfl

end

/-- What the end of an attempt by a STOP leaves of the port (R77, R81). -/
theorem finished_stopMade {P Q : Port} {reached : List FaultReason} {now : Word} (h : (P.stopMade reached now).Finished Q) :
    Q.state = .idle ∧ Q.busFree = true ∧ Q.eng = Engine.reset ∧ Q.sclDriven = false ∧ Q.sdaDriven = false ∧
      Q.tied = P.tied ++ reached :=
  ⟨congrArg Port.state h, congrArg Port.busFree h, congrArg Port.eng h, congrArg Port.sclDriven h,
    congrArg Port.sdaDriven h, congrArg Port.tied h⟩

/-! ### MASTER_STOP_COMPLETE (R77) -/

section

variable (up : Awake s) (served : (s.port p).inService = some k) (held : s.txn k = some t)
  (may : (s.port p).eng.mayStop t.req = true)
include up served held may

theorem exec_stop_quiet (quiet : (s.port p).eng.quiet = true) :
    exec (.masterStopComplete p) s = .next (endQuiet p (s.stopMade p)) := by
  refine congrArg Host.Outcome.next ((awake_of_awake up).trans ?_)
  rw [stopComplete, withAttempt_eq (phase_of_mayStop may) served held, if_pos may]
  exact if_pos quiet

variable (loud : (s.port p).eng.quiet = false) (told : (s.port p).tgt.disableTold = false)
include loud told

/-- The STOP ends the attempt with the outcome decided, or with OK after the last segment (R77). -/
theorem exec_stop_ends {out : AttemptOutcome} (decides : (s.port p).eng.outcome = some out ∨
    (s.port p).eng.outcome = none ∧ (s.port p).eng.segment + 1 = t.req.nseg.toNat ∧ out = .result .ok 0) :
    exec (.masterStopComplete p) s = .next (finishAttempt p out s.timebase (s.stopMade p)) := by
  refine congrArg Host.Outcome.next ((awake_of_awake up).trans ?_)
  rw [stopComplete, withAttempt_eq (phase_of_mayStop may) served held, if_pos may]
  dsimp only
  rw [show enterIdle p (releaseLines p (touch p (tieTimeouts p s))) = s.stopMade p from rfl, stopMade_time told, loud,
    if_neg Bool.false_ne_true]
  rcases decides with decided | ⟨undecided, last, rfl⟩
  · rw [decided]
  · rw [undecided]
    exact if_pos (decide_eq_true last)

/-- Before the last segment, with nothing decided, the attempt waits in BETWEEN (R77). -/
theorem exec_stop_between (undecided : (s.port p).eng.outcome = none)
    (further : (s.port p).eng.segment + 1 ≠ t.req.nseg.toNat) : exec (.masterStopComplete p) s = .next
      ((s.stopMade p).modPort p fun P => { P with eng := { P.eng with phase := .between, closedAt := s.timebase } }) := by
  refine congrArg Host.Outcome.next ((awake_of_awake up).trans ?_)
  rw [stopComplete, withAttempt_eq (phase_of_mayStop may) served held, if_pos may]
  dsimp only
  rw [show enterIdle p (releaseLines p (touch p (tieTimeouts p s))) = s.stopMade p from rfl, stopMade_time told, loud,
    if_neg Bool.false_ne_true, undecided]
  exact if_neg fun last => further (of_decide_eq_true last)

end

/-! ### The ends of an attempt after the port's moves (R52, R54) -/

theorem port_retrying {now : Word} :
    (v.retrying p k t now).port p = { v.port p with eng := Engine.reset, inbound := [] } :=
  (port_modPort ..).trans (if_pos rfl)

theorem txn_retrying {now : Word} : (v.retrying p k t now).txn k = some (t.retried now) :=
  (txn_setSlot ..).trans (if_pos rfl)

/-- A deadline that expired after a retry decision posts its record at the attempt's end (R57, log entry 45). -/
theorem recordPosted_retryExpired {now : Word} (h : OnBus p s v) (served : (s.port p).inService = some k)
    (can : CanPost s p t) :
    let u := fixOutside p k .deadline 0 (v.retrying p k t now)
    RecordPosted s u p k { t.retried now with
      state := .posting, result := .deadline, detail := 0, segIndex := 0, writeCount := 0, readCount := 0,
      endTime := s.timebase } ∧ (u.port p).state = (v.port p).state ∧ (u.port p).eng = Engine.reset := by
  have able : CanPost (v.retrying p k t now) p (t.retried now) :=
    (h.canPost can).congr rfl rfl rfl rfl rfl (by rw [port_retrying])
  have time : (v.retrying p k t now).timebase = s.timebase := by
    rw [State.retrying, h.eq]
    rfl
  have comp : (v.retrying p k t now).comp = s.comp ∧ (v.retrying p k t now).rqs = s.rqs ∧
      (v.retrying p k t now).cqs = s.cqs := by
    rw [State.retrying, h.eq]
    exact ⟨rfl, rfl, rfl⟩
  dsimp only
  rw [fixOutside_posts (r := .deadline) (by rw [port_retrying]; exact h.inService.trans served) txn_retrying nofun able, time]
  refine ⟨recordPosted_posted (x := (t.retried now).fixed .deadline 0 s.timebase) can.1 comp.1 comp.2.1 comp.2.2 ?_ ?_,
    ?_, ?_⟩
  · rw [port_cleared, port_retrying]
    exact h.list
  · rw [port_cleared, port_retrying]
    exact h.completed
  all_goals
    rw [port_posted_self, port_cleared, port_retrying]
    rfl

end Sys2Proof.Machine
end

section
/-! SUPPORT. A lost attempt's end (R78 to R80), the byte judged after a loss at ADDRESS (R148), and what a draining write
stores (R8, R53). From them the statement AttemptsEnd. -/

namespace Sys2Proof.Machine

variable {s v u : State} {p : PortId} {q : RqId} {k : SlotId} {t x : Txn} {E : Engine} {r : Request} {w : Result} {d : Byte}
  {place : LossPlace} {b : Bool} {winner : Byte}

/-! ### The count byte refused (R78, log entry 24) -/

/-- The port without the count byte in whose refusal the loss was seen. -/
def Port.dropping (P : Port) (b : Bool) : Port :=
  { P with
    inbound := if b then P.inbound.dropLast else P.inbound,
    eng := { P.eng with readCount := if b then P.eng.readCount - 1 else P.eng.readCount } }

/-- The state a loss at `place` starts from. -/
def State.dropping (s : State) (p : PortId) (b : Bool) : State := s.modPort p fun P => P.dropping b

/-- The engine has refused a count byte above the segment's capacity. -/
def Engine.overlong (E : Engine) : Bool :=
  match E.outcome with
  | some (.result .overlength _) => true
  | _ => false

theorem overlong_of_none (h : E.outcome = none) : E.overlong = false := by
  unfold Engine.overlong
  rw [h]

theorem overlong_of_result (h : E.outcome = some (.result w d)) : E.overlong = decide (w = .overlength) := by
  unfold Engine.overlong
  rw [h]
  cases w <;> rfl

theorem port_dropping : (s.dropping p b).port p = (s.port p).dropping b := (port_modPort ..).trans (if_pos rfl)

theorem dropping_false : s.dropping p false = s := modPort_self rfl

theorem overlong_iff : E.overlong = true ↔ ∃ d, E.outcome = some (.result .overlength d) := by
  unfold Engine.overlong
  split
  next d e => exact iff_of_true rfl ⟨d, e⟩
  next other => exact iff_of_false Bool.false_ne_true fun ⟨d, e⟩ => other d e

theorem dropRefused_of_overlength (h : (s.port p).eng.outcome = some (.result .overlength d)) :
    dropRefused p s = s.dropping p true := by
  unfold dropRefused
  split
  · rfl
  next other => exact absurd h (other d)

theorem dropRefused_of_ne (h : ∀ d, (s.port p).eng.outcome ≠ some (.result .overlength d)) : dropRefused p s = s := by
  unfold dropRefused
  split
  next d e => exact absurd e (h d)
  · rfl

theorem dropRefused_eq : dropRefused p s = s.dropping p (s.port p).eng.overlong := by
  cases h : (s.port p).eng.overlong with
  | true =>
    obtain ⟨d, e⟩ := overlong_iff.mp h
    exact dropRefused_of_overlength e
  | false =>
    rw [dropping_false]
    exact dropRefused_of_ne fun d e => Bool.false_ne_true (h.symm.trans (overlong_iff.mpr ⟨d, e⟩))

theorem lossBase_eq : (if place = .data then dropRefused p s else s) =
    s.dropping p (decide (place = .data) && (s.port p).eng.overlong) := by
  by_cases h : place = .data
  · rw [if_pos h, decide_eq_true h, Bool.true_and, dropRefused_eq]
  · rw [if_neg h, decide_eq_false h, Bool.false_and, dropping_false]

/-! ### ARBITRATION_LOSS (R78) -/

theorem refusing_of (read : (r.seg E.segment).kind ≠ .write) (out : E.outcome = some (.result w d))
    (which : w = .overlength ∨ w = .ok ∨ w = .checkFail) : E.refusing r = true := by
  unfold Engine.refusing
  rw [writes_eq_false read, out]
  rcases which with rfl | rfl | rfl <;> rfl

theorem canLose_of_mem (h : (E.phase, place) ∈ [(Phase.sending, LossPlace.data), (.receiving, .data),
    (.checking, .data), (.closing, .stop), (.addressing, .address)]) :
    E.canLose r place = true ∧ E.phase ≠ .none ∧ E.phase ≠ .opening := by
  simp only [List.mem_cons, List.not_mem_nil, or_false, Prod.mk.injEq] at h
  rcases h with ⟨phase, rfl⟩ | ⟨phase, rfl⟩ | ⟨phase, rfl⟩ | ⟨phase, rfl⟩ | ⟨phase, rfl⟩ <;>
    simp [Engine.canLose, Engine.mayStop, phase]

section

variable (up : Awake s) (served : (s.port p).inService = some k) (held : s.txn k = some t)
  (can : (s.port p).eng.canLose t.req place = true) (busy : (s.port p).eng.phase ≠ .none)
  (base : (decide (place = .data) && (s.port p).eng.overlong) = b)
  (is : loseArbitration p place false (s.dropping p b) = u)
include up served held can busy base is

theorem exec_loss :
    exec (.arbitrationLoss p place winner) s =
      .next (if place == .address && (u.port p).state == .observing && u.judges p then judge p winner u else u) := by
  refine congrArg Host.Outcome.next ((awake_of_awake up).trans ?_)
  rw [arbitrationLost, withAttempt_eq busy served held, if_pos can]
  dsimp only
  rw [lossBase_eq, base, is]

/-- Away from an address byte that the target unit may judge the loss is all that happens. -/
theorem exec_loss_plain (plain : place ≠ .address ∨ u.judges p = false) : exec (.arbitrationLoss p place winner) s = .next u := by
  rw [exec_loss up served held can busy base is]
  refine congrArg _ (if_neg fun all => ?_)
  obtain ⟨both, judges⟩ := Bool.and_eq_true_iff.mp all
  rcases plain with other | never
  · exact other (beq_iff_eq.mp (Bool.and_eq_true_iff.mp both).1)
  · rw [never] at judges
    cases judges

end

/-! ### What a loss leaves (R78, R80) -/

/-- Between `s` and `u` the engine of port `p` lost, and its attempt ended. -/
def LostAs (s u : State) (p : PortId) : Prop :=
  (u.port p).state = .observing ∧ (u.port p).busFree = (s.port p).busFree ∧ (u.port p).sclDriven = false ∧
    (u.port p).sdaDriven = false ∧ (u.port p).eng = Engine.reset ∧
    (u.port p).tied = (s.port p).tied ++ s.timeoutsReached p ∧
    (u.port p).stats.arbLosses = (s.port p).stats.arbLosses + 1

theorem dropping_reached : (s.dropping p b).timeoutsReached p = s.timeoutsReached p :=
  timeoutsReached_congr (by rw [port_dropping]; rfl) rfl (by rw [port_dropping]; rfl) (by rw [port_dropping]; rfl)

theorem port_dropping_lost : ((s.dropping p b).lost p false).port p =
    ((s.port p).dropping b).lost false (s.timeoutsReached p) s.timebase := by
  rw [port_lost, port_dropping, dropping_reached]
  rfl

theorem lostAs_of_finished (h : (((s.dropping p b).lost p false).port p).Finished (u.port p)) : LostAs s u p := by
  rw [port_dropping_lost] at h
  obtain ⟨state, -, verdict, scl, sda, eng, tied, losses, -⟩ := finished_lost h
  exact ⟨state, verdict, scl, sda, eng, tied, losses⟩

/-- A record posted, or a transaction's draining, between two states is so from any that differs only in the ports, and
there in nothing the scheduler keeps. -/
theorem RecordPosted.base (h : RecordPosted v u p k x) (same : v = { s with ports := v.ports })
    (list : (v.port p).list = (s.port p).list)
    (completed : (v.port p).stats.completed = (s.port p).stats.completed) : RecordPosted s u p k x := by
  obtain ⟨comp, entry, listed, service, result, counted, rqs, cqs⟩ := h
  rw [list] at listed
  rw [completed] at counted
  rw [same] at comp rqs cqs
  exact ⟨comp, entry, listed, service, result, counted, rqs, cqs⟩

theorem Drains.base {bytes : List (Nat × Byte)} (h : Drains v u p k x bytes) (same : v = { s with ports := v.ports })
    (list : (v.port p).list = (s.port p).list)
    (completed : (v.port p).stats.completed = (s.port p).stats.completed) : Drains s u p k x bytes := by
  obtain ⟨entry, accesses, service, listed, inbound, counted, comp, rqs, cqs, others⟩ := h
  rw [list] at listed
  rw [completed] at counted
  have other (j : SlotId) (ne : j ≠ k) : u.txn j = s.txn j := (others j ne).trans (by rw [same]; rfl)
  rw [same] at accesses comp rqs cqs
  exact ⟨entry, accesses, service, listed, inbound, counted, comp, rqs, cqs, other⟩

section

variable (served : (s.port p).inService = some k) (held : s.txn k = some t) (way : (s.port p).eng.phase ≠ .opening)
include served held way

omit served held in
theorem lost_done {now : Word} : ({ t.finished (((s.dropping p b).lost p false).port p).eng w d now with state := .posting } : Txn) =
    { t with
      state := .posting, started := some (t.started.getD now), result := w, detail := d,
      segIndex := (s.port p).eng.segment, writeCount := (s.port p).eng.writeCount,
      readCount := if b then (s.port p).eng.readCount - 1 else (s.port p).eng.readCount, endTime := now } := by
  have same : Engine.segmentUnderWay ((s.port p).dropping b).eng = (s.port p).eng.segment :=
    segmentUnderWay_of_not (E := ((s.port p).dropping b).eng) (.inl way)
  rw [port_dropping_lost, Txn.finished, Port.lost]
  dsimp only
  rw [same]
  rfl

/-- A lost attempt that read nothing posts its record (R54, R80). -/
theorem lost_posts (unread : (if b then (s.port p).eng.readCount - 1 else (s.port p).eng.readCount) = 0)
    (can : CanPost s p t) (keeps : w ≠ .ok ∨ t.req.suppress = false) :
    let u := finishAttempt p (.result w d) s.timebase ((s.dropping p b).lost p false)
    RecordPosted s u p k { t with
      state := .posting, started := some (t.started.getD s.timebase), result := w, detail := d,
      segIndex := (s.port p).eng.segment, writeCount := (s.port p).eng.writeCount, readCount := 0,
      endTime := s.timebase } ∧ LostAs s u p ∧
      (((s.dropping p b).lost p false).port p).Finished (u.port p) ∧ ServiceOnly k s u := by
  have able : CanPost (s.dropping p b) p t := can.congr rfl rfl rfl rfl rfl (by rw [port_dropping]; rfl)
  obtain ⟨posted, finished, only⟩ := (onBus_lost (s := s.dropping p b) (starts := false)).posts (r := w) (d := d)
    (now := s.timebase) (by rw [port_dropping]; exact served) held (by rw [port_dropping_lost]; exact unread) keeps able
  rw [lost_done way, unread] at posted
  exact ⟨posted.base rfl (by rw [port_dropping]; rfl) (by rw [port_dropping]; rfl), lostAs_of_finished finished, finished,
    only.of_ports rfl⟩

/-- A lost attempt that read bytes goes to DRAINING (R51, R80). -/
theorem lost_drains (read : (if b then (s.port p).eng.readCount - 1 else (s.port p).eng.readCount) ≠ 0)
    (origin : t.origin = .rq q) :
    let u := finishAttempt p (.result w d) s.timebase ((s.dropping p b).lost p false)
    Drains s u p k { t with
      state := .posting, started := some (t.started.getD s.timebase), result := w, detail := d,
      segIndex := (s.port p).eng.segment, writeCount := (s.port p).eng.writeCount,
      readCount := if b then (s.port p).eng.readCount - 1 else (s.port p).eng.readCount, endTime := s.timebase }
      (if b then (s.port p).inbound.dropLast else (s.port p).inbound) ∧ LostAs s u p ∧
      (((s.dropping p b).lost p false).port p).Finished (u.port p) ∧ ServiceOnly k s u := by
  obtain ⟨drained, finished, only⟩ := (onBus_lost (s := s.dropping p b) (starts := false)).drains (r := w) (d := d)
    (now := s.timebase) (by rw [port_dropping]; exact served) held (by rw [port_dropping_lost]; exact read) origin
  rw [lost_done way, port_dropping] at drained
  exact ⟨drained.base rfl (by rw [port_dropping]; rfl) (by rw [port_dropping]; rfl), lostAs_of_finished finished, finished,
    only.of_ports rfl⟩

omit served held way in
/-- A retry decided, the attempt's transaction waits or is READY again (R52, R80). -/
theorem lostAs_retrying {now : Word} {y : Txn} : LostAs s (((s.dropping p b).lost p false).retrying p k y now) p := by
  rw [LostAs, port_retrying, port_dropping_lost]
  exact ⟨rfl, rfl, rfl, rfl, rfl, rfl, rfl⟩

end

/-! ### The byte judged after a loss at ADDRESS (R148) -/

/-- A port that has just lost judges the winner's byte as it judges an address byte. -/
theorem exec_addressByte_after (run : Running u) (observing : (u.port p).state = .observing)
    (taken : (u.port p).awaitAddr = false) (idle : (u.port p).idleFrom = u.timebase)
    (clock : (u.port p).clockLowFrom = u.timebase) (data : (u.port p).stuckDataFrom = u.timebase) :
    exec (.addressByte p winner) (u.modPort p fun P => { P with awaitAddr := true }) =
      .next (if u.judges p then judge p winner u else u) := by
  have port : (u.modPort p fun P => { P with awaitAddr := true }).port p = { u.port p with awaitAddr := true } :=
    (port_modPort ..).trans (if_pos rfl)
  have back : touch p ((u.modPort p fun P => { P with awaitAddr := true }).modPort p fun P =>
      { P with awaitAddr := false }) = u := by
    unfold touch
    rw [modPort_modPort, modPort_modPort]
    refine modPort_self ?_
    have same : ({ u.port p with
        awaitAddr := false, idleFrom := u.timebase, clockLowFrom := u.timebase,
        stuckDataFrom := u.timebase } : Port) = { u.port p with
          awaitAddr := (u.port p).awaitAddr, idleFrom := (u.port p).idleFrom, clockLowFrom := (u.port p).clockLowFrom,
          stuckDataFrom := (u.port p).stuckDataFrom } := by rw [taken, idle, clock, data]
    exact same
  refine congrArg Host.Outcome.next ((whenRunning_of_running (by exact run)).trans ?_)
  unfold addressSeen
  rw [port, if_pos (by rw [observing]; rfl), back]

theorem judges_of_not_inStep (h : (u.port p).inStep = false) : u.judges p = false := by
  unfold State.judges
  rw [h, Bool.and_false]
  rfl

theorem RecordPosted.awaits (h : RecordPosted s u p k x) :
    RecordPosted s (u.modPort p fun P => { P with awaitAddr := true }) p k x := by
  obtain ⟨comp, entry, listed, service, result, counted, rqs, cqs⟩ := h
  refine ⟨comp, entry, ?_, ?_, ?_, ?_, rqs, cqs⟩
  all_goals rw [port_modPort, if_pos rfl]
  exacts [listed, service, result, counted]

theorem Drains.awaits {bytes : List (Nat × Byte)} (h : Drains s u p k x bytes) :
    Drains s (u.modPort p fun P => { P with awaitAddr := true }) p k x bytes := by
  obtain ⟨entry, accesses, service, listed, inbound, counted, comp, rqs, cqs, others⟩ := h
  refine ⟨entry, accesses, ?_, ?_, ?_, ?_, comp, rqs, cqs, others⟩
  all_goals rw [port_modPort, if_pos rfl]
  exacts [service, listed, inbound, counted]

/-- A loss that is retried, awaiting the winner's address byte (R78, R148). -/
theorem retrying_lost_awaits : (s.modPort p fun P => { P with
      state := .observing, awaitAddr := true, sclDriven := false, sdaDriven := false, inbound := [], eng := Engine.reset,
      idleFrom := s.timebase, clockLowFrom := s.timebase, stuckDataFrom := s.timebase,
      tied := P.tied ++ s.timeoutsReached p, stats := { P.stats with arbLosses := P.stats.arbLosses + 1 } }).setSlot k
        (.txn (x.retried s.timebase)) =
    ((s.lost p false).retrying p k x s.timebase).modPort p fun P => { P with awaitAddr := true } := by
  rw [show ((s.lost p false).retrying p k x s.timebase).modPort p (fun P => { P with awaitAddr := true }) =
    (((s.lost p false).modPort p fun P => { P with eng := Engine.reset, inbound := [] }).modPort p
      fun P => { P with awaitAddr := true }).setSlot k (.txn (x.retried s.timebase)) from rfl]
  unfold State.lost
  rw [modPort_modPort, modPort_modPort]
  rfl

/-- After a loss at ADDRESS that ends the attempt the winner's byte is judged (R78, R148). -/
theorem exec_loss_judged (run : Running s) (served : (s.port p).inService = some k) (held : s.txn k = some t)
    (addressing : (s.port p).eng.phase = .addressing) (is : loseArbitration p .address false s = u)
    (link : u.link = s.link) (time : u.timebase = s.timebase) (observing : (u.port p).state = .observing)
    (taken : (u.port p).awaitAddr = false) (idle : (u.port p).idleFrom = s.timebase)
    (clock : (u.port p).clockLowFrom = s.timebase) (data : (u.port p).stuckDataFrom = s.timebase) :
    exec (.arbitrationLoss p .address winner) s =
      exec (.addressByte p winner) (u.modPort p fun P => { P with awaitAddr := true }) := by
  have can : (s.port p).eng.canLose t.req .address = true := by rw [Engine.canLose, addressing]; rfl
  rw [exec_addressByte_after (by rw [Running, link]; exact run) observing taken (idle.trans time.symm)
    (clock.trans time.symm) (data.trans time.symm)]
  rw [exec_loss run.1 served held can (by rw [addressing]; nofun) (Bool.false_and _)
    (by rw [dropping_false, is]), observing]
  rfl

/-! ### The end of an attempt without a result (R85) -/

/-- An attempt that ends without a result leaves its transaction in service, READY (R85). -/
theorem endQuiet_leaves (h : OnBus p s v) (served : (s.port p).inService = some k) (held : s.txn k = some t) :
    ((endQuiet p v).txn k = some { t with state := .ready } ∧ ((endQuiet p v).port p).eng = Engine.reset ∧
      ((endQuiet p v).port p).sclDriven = false ∧ ((endQuiet p v).port p).sdaDriven = false ∧
      ((endQuiet p v).port p).inService = some k ∧ ((endQuiet p v).port p).list = (s.port p).list ∧
      (endQuiet p v).comp = s.comp ∧ (endQuiet p v).accesses = s.accesses) ∧
      (endQuiet p v).port p = { v.port p with eng := Engine.reset, sclDriven := false, sdaDriven := false } := by
  have port := (endQuiet_port p p v).trans (if_pos rfl)
  refine ⟨⟨?_, by rw [port], by rw [port], by rw [port], ?_, ?_, ?_, ?_⟩, port⟩
  · rw [endQuiet_txn, if_pos (h.inService.trans served), h.txn, held]
    rfl
  · rw [port]
    exact h.inService.trans served
  · rw [port]
    exact h.list
  all_goals rw [endQuiet_eq, h.eq]

/-- A loss of an engine made quiet ends its attempt without a result (R78, R85). -/
theorem quiet_loss (served : (s.port p).inService = some k) (held : s.txn k = some t) :
    let u := endQuiet p ((s.dropping p b).lost p false)
    (u.txn k = some { t with state := .ready } ∧ (u.port p).eng = Engine.reset ∧ (u.port p).sclDriven = false ∧
      (u.port p).sdaDriven = false ∧ (u.port p).inService = some k ∧ (u.port p).list = (s.port p).list ∧
      u.comp = s.comp ∧ u.accesses = s.accesses) ∧ LostAs s u p ∧ u.link = s.link := by
  obtain ⟨⟨entry, eng, scl, sda, service, list, comp, accesses⟩, port⟩ :=
    endQuiet_leaves (s := s.dropping p b) (onBus_lost (starts := false)) (by rw [port_dropping]; exact served) held
  rw [port_dropping] at list
  refine ⟨⟨entry, eng, scl, sda, service, list, comp, accesses⟩, ?_, ?_⟩
  · rw [LostAs, port, port_dropping_lost]
    exact ⟨rfl, rfl, rfl, rfl, rfl, rfl, rfl⟩
  · rw [endQuiet_eq]
    rfl

theorem judges_of_not_running (h : u.link.ctrl ≠ .running) : u.judges p = false := by
  unfold State.judges
  rw [beq_eq_false_iff_ne.mpr h, Bool.and_false]
  rfl

theorem port_suppressed : (s.suppressed p k q).port p = (s.port p).left := (port_modPort ..).trans (if_pos rfl)

/-! ### What a draining write stores (R8, R53) -/

/-- The segments that received bytes, in order. -/
def readSegments (r : Request) (inbound : List (Nat × Byte)) : List Nat :=
  (List.range r.segs.length).filter fun i => !(receivedOf inbound i).isEmpty

theorem readSegments_ordered {inbound : List (Nat × Byte)} : (readSegments r inbound).Pairwise (· < ·) :=
  List.pairwise_lt_range.filter _

theorem mem_readSegments {inbound : List (Nat × Byte)} {i : Nat} :
    i ∈ readSegments r inbound ↔ i < r.segs.length ∧ receivedOf inbound i ≠ [] := by
  rw [readSegments, List.mem_filter, List.mem_range, Bool.not_eq_true', List.isEmpty_eq_false_iff]

theorem drainParts_eq {inbound : List (Nat × Byte)} :
    drainParts r inbound = (readSegments r inbound).map fun i => (rangeAddr r (r.seg i), receivedOf inbound i) := by
  rw [drainParts, List.filter_map, readSegments]
  rfl

end Sys2Proof.Machine

namespace Sys2Proof.Proofs

open Sys2Proof.Machine

/-- Settles O48: a STOP or a loss moves the port, and the attempt ends by what was decided. -/
theorem attemptsEnd : Obligations.AttemptsEnd := by
  intro s p k t up served held told pending E mayStop done lost
  have may (h : mayStop) : E.mayStop t.req = true := mayStop_iff.mpr h
  have on : OnBus p s (s.stopMade p) := onBus_stopMade told
  have made : (s.stopMade p).port p = (s.port p).stopMade (s.timeoutsReached p) s.timebase := port_stopMade told
  have made_eng : ((s.stopMade p).port p).eng = E := by
    rw [made]
    rfl
  refine ⟨fun loud stops => ⟨fun undecided further => ?between, ?results, fun q decides unread suppress origin holds kept =>
      ?suppressed, fun retry => ?retried, fun retry can => ?expired⟩, ?decided, ?undecided,
    fun winner run loud addressing undecided => ?judged, ?quiet, fun inbound => ?bytes⟩
  case between =>
    refine ⟨_, exec_stop_between up served held (may stops) loud told undecided further, ?_⟩
    have port : ((s.stopMade p).modPort p fun P => { P with eng := { P.eng with
        phase := .between, closedAt := s.timebase } }).port p = { (s.port p).stopMade (s.timeoutsReached p) s.timebase with
        eng := { E with phase := .between, closedAt := s.timebase } } := by
      rw [port_modPort, if_pos rfl, made]
      rfl
    rw [port]
    exact ⟨rfl, rfl, rfl, rfl, rfl, rfl, rfl, (congrArg State.slots (stopMade_eq told) :)⟩
  case results =>
    intro r d decides ended
    have stop := exec_stop_ends up served held (may stops) loud told (out := .result r d)
      (decides.imp id fun ⟨undecided, last, ok, zero⟩ => ⟨undecided, last, by rw [ok, zero]⟩)
    refine ⟨fun unread can keeps => ⟨_, stop, ?_⟩, fun q read origin => ⟨_, stop, ?_⟩⟩
    · obtain ⟨posted, finished, -⟩ := on.posts (r := r) (d := d) (now := s.timebase) served held
        (by rw [made_eng]; exact unread) keeps can
      have ends : ({ t.finished ((s.stopMade p).port p).eng r d s.timebase with state := .posting } : Txn) =
          done r d 0 := by
        rw [made_eng, ← unread]
        rfl
      rw [made] at finished
      exact ⟨ends ▸ posted, finished_stopMade finished⟩
    · obtain ⟨drained, finished, -⟩ := on.drains (r := r) (d := d) (now := s.timebase) served held
        (by rw [made_eng]; exact read) origin
      rw [made] at finished
      rw [made_eng] at drained
      exact ⟨drained, finished_stopMade finished⟩
  case suppressed =>
    refine ⟨_, exec_stop_ends up served held (may stops) loud told (out := .result .ok 0)
      (decides.imp id fun ⟨u, l⟩ => ⟨u, l, rfl⟩), ?_⟩
    rw [finishAttempt_suppressed (on.inService.trans served) (on.txn.trans held) (by rw [made_eng]; exact unread) suppress
      origin (by rw [LeavesAlone, on.eq]; exact ⟨holds, on.pending.trans pending⟩) (by rw [on.eq]; exact kept)]
    refine ⟨suppressed_of (by rw [on.eq]; rfl) (by rw [on.eq]; rfl) (by rw [on.eq]; rfl)
      (by rw [port_engineReset]; exact on.list) (by rw [port_engineReset]; exact on.completed), ?_⟩
    rw [port_suppressed, port_engineReset, made]
    exact ⟨rfl, rfl⟩
  case retried =>
    refine ⟨_, exec_stop_ends up served held (may stops) loud told (.inl retry), ?_⟩
    rw [finishAttempt_retry (on.inService.trans served) (on.txn.trans held) (on.pending.trans pending), port_retrying, made]
    exact ⟨txn_retrying, rfl, rfl, rfl, rfl⟩
  case expired =>
    refine ⟨_, exec_stop_ends up served held (may stops) loud told (.inl retry), ?_⟩
    rw [finishAttempt_retryExpired (on.inService.trans served) (on.txn.trans held) (on.pending.trans pending)]
    obtain ⟨posted, state, eng⟩ := recordPosted_retryExpired (now := s.timebase) on served can
    exact ⟨posted, state.trans (congrArg Port.state made), eng⟩
  case decided =>
    intro winner place r d loud decided where_ dropped count
    have canLose : E.canLose t.req place = true ∧ E.phase ≠ .none ∧ E.phase ≠ .opening := by
      rcases where_ with ⟨rfl, stops⟩ | mem | ⟨phase, rfl, -⟩ | ⟨phase, rfl, read, which⟩
      · refine ⟨may stops, phase_of_mayStop (may stops), ?_⟩
        rcases stops with e | ⟨-, e | ⟨e, -⟩⟩ <;> rw [e] <;> nofun
      · refine canLose_of_mem ?_
        simp only [List.mem_cons, List.not_mem_nil, or_false] at mem ⊢
        rcases mem with e | e | e <;> simp [e]
      · exact canLose_of_mem (by simp [phase])
      · refine ⟨?_, by rw [phase]; nofun, by rw [phase]; nofun⟩
        simp [Engine.canLose, phase, refusing_of read decided which]
    obtain ⟨canLose, busy, way⟩ := canLose
    have base : (decide (place = .data) && (s.port p).eng.overlong) = dropped := by rw [overlong_of_result decided]
    have loses : loseArbitration p place false (s.dropping p dropped) =
        finishAttempt p (.result r d) s.timebase ((s.dropping p dropped).lost p false) :=
      loseArbitration_decided (by rw [port_dropping]; exact loud) (by rw [port_dropping]; exact decided)
    have silent {u : State} (f : (((s.dropping p dropped).lost p false).port p).Finished (u.port p)) :
        place ≠ .address ∨ u.judges p = false := by
      by_cases address : place = .address
      · refine .inr (judges_of_not_inStep ((congrArg Port.inStep (port_dropping_lost ▸ f) :).trans ?_))
        rcases where_ with ⟨rfl, -⟩ | mem | ⟨-, -, out⟩ | ⟨-, rfl, -⟩
        · cases address
        · rw [address] at mem
          simp at mem
        · exact out
        · cases address
      · exact .inl address
    refine ⟨fun unread can keeps => ?_, fun q read origin => ?_⟩
    · obtain ⟨posted, leaves, finished, -⟩ := lost_posts (d := d) served held way unread can keeps
      exact ⟨_, exec_loss_plain up served held canLose busy base loses (silent finished), posted, leaves⟩
    · obtain ⟨drained, leaves, finished, -⟩ := lost_drains (w := r) (d := d) served held way read origin
      exact ⟨_, exec_loss_plain up served held canLose busy base loses (silent finished), drained, leaves⟩
  case undecided =>
    intro place winner loud where_ undecided out
    obtain ⟨canLose, busy, way⟩ := canLose_of_mem (r := t.req) where_
    have base : (decide (place = .data) && (s.port p).eng.overlong) = false := by
      rw [overlong_of_none undecided, Bool.and_false]
    have plain {u : State} (same : (u.port p).inStep = (s.port p).inStep) : place ≠ .address ∨ u.judges p = false :=
      out.symm.imp id fun not => judges_of_not_inStep (same.trans not)
    refine ⟨fun left => ?_, fun used => ⟨fun unread can => ?_, fun q read origin => ?_⟩⟩
    · have loses := loseArbitration_retries (s := s.dropping p false) (place := place) (starts := false)
        (by rw [port_dropping]; exact loud) (by rw [port_dropping]; exact undecided) (by rw [port_dropping]; exact served)
        held left (by rw [port_dropping]; exact pending)
      refine ⟨_, exec_loss_plain up served held canLose busy base loses (plain ?_), txn_retrying, lostAs_retrying⟩
      rw [port_retrying, port_dropping_lost]
      rfl
    all_goals
      have loses := loseArbitration_ends (s := s.dropping p false) (place := place) (starts := false)
        (by rw [port_dropping]; exact loud) (by rw [port_dropping]; exact undecided) (by rw [port_dropping]; exact served)
        held used
      rw [show (s.dropping p false).timebase = s.timebase from rfl] at loses
    · obtain ⟨posted, leaves, finished, -⟩ :=
        lost_posts (b := false) (w := .arbLost) (d := lossDetail place) served held way unread can
        (.inl nofun)
      exact ⟨_, exec_loss_plain up served held canLose busy base loses (plain (congrArg Port.inStep
        (port_dropping_lost ▸ finished) :)), posted, leaves⟩
    · obtain ⟨drained, leaves, finished, -⟩ := lost_drains (b := false) (w := .arbLost) (d := lossDetail place) served held way
        read origin
      exact ⟨_, exec_loss_plain up served held canLose busy base loses (plain (congrArg Port.inStep
        (port_dropping_lost ▸ finished) :)), drained, leaves⟩
  case judged =>
    have lost_eq : s.dropping p false = s := dropping_false
    refine ⟨fun left => ?_, fun used => ?_⟩
    · have loses := loseArbitration_retries (place := .address) (starts := false) loud undecided served held left pending
      have port : ((s.lost p false).retrying p k { t with arbUsed := t.arbUsed + 1 } s.timebase).port p =
          { (s.port p).lost false (s.timeoutsReached p) s.timebase with eng := Engine.reset, inbound := [] } := by
        rw [port_retrying, port_lost]
      rw [exec_loss_judged run served held addressing loses rfl rfl (by rw [port]; rfl) (by rw [port]; rfl)
        (by rw [port]; rfl) (by rw [port]; rfl) (by rw [port]; rfl)]
      refine congrArg (exec _) ?_
      exact retrying_lost_awaits.symm
    · intro judgedFrom
      have loses := loseArbitration_ends (place := .address) (starts := false) loud undecided served held used
      have judged {u : State} (is : finishAttempt p (.result .arbLost (lossDetail .address)) s.timebase (s.lost p false) = u)
          (finished : ((s.lost p false).port p).Finished (u.port p)) (only : ServiceOnly k s u) :
          judgedFrom (u.modPort p fun P => { P with awaitAddr := true }) := by
        have port : (u.modPort p fun P => { P with awaitAddr := true }).port p = { u.port p with awaitAddr := true } :=
          (port_modPort ..).trans (if_pos rfl)
        rw [port_lost] at finished
        obtain ⟨state, await, -, -, -, eng, tied, losses, inStep, tgt⟩ := finished_lost finished
        have goes := exec_loss_judged (winner := winner) run served held addressing (loses.trans is) (by rw [only.1])
          (by rw [only.1]) state await (congrArg Port.idleFrom finished :) (congrArg Port.clockLowFrom finished :)
          (congrArg Port.stuckDataFrom finished :)
        change (_ ∧ _)
        rw [port]
        exact ⟨state, rfl, inStep, tgt, eng, tied, losses, goes⟩
      refine ⟨fun unread can => ?_, fun q read origin => ?_⟩
      · obtain ⟨posted, -, finished, only⟩ := lost_posts (b := false) (w := .arbLost) (d := lossDetail .address) served held
          (by rw [addressing]; nofun) unread can (.inl nofun)
        rw [lost_eq] at posted finished only
        exact ⟨_, posted.awaits, judged rfl finished only⟩
      · obtain ⟨drained, -, finished, only⟩ := lost_drains (b := false) (w := .arbLost) (d := lossDetail .address) served held
          (by rw [addressing]; nofun) read origin
        rw [lost_eq] at drained finished only
        exact ⟨_, drained.awaits, judged rfl finished only⟩
  case quiet =>
    intro quiet gone
    refine ⟨fun stops => ⟨_, exec_stop_quiet up served held (may stops) quiet, ?_⟩, fun place winner mem halted => ?_⟩
    · obtain ⟨leaves, port⟩ := endQuiet_leaves on served held
      exact ⟨leaves, (congrArg Port.state port).trans (congrArg Port.state made)⟩
    · obtain ⟨canLose, busy, -⟩ := canLose_of_mem (r := t.req) mem
      have loses := loseArbitration_quiet (s := s.dropping p (decide (place = .data) && (s.port p).eng.overlong))
        (p := p) (place := place) (starts := false) (by rw [port_dropping]; exact quiet)
      obtain ⟨leaves, loss, link⟩ := quiet_loss
        (b := decide (place = .data) && (s.port p).eng.overlong) served held
      exact ⟨_, exec_loss_plain up served held canLose busy rfl loses (.inr (judges_of_not_running (by rw [link]; exact halted))),
        leaves, loss⟩
  case bytes => exact ⟨readSegments t.req inbound, readSegments_ordered, fun i => mem_readSegments, drainParts_eq⟩

end Sys2Proof.Proofs
end

section
/-! SUPPORT. The completion of a triggered transaction (R127, R134 to R138), and the end of its service (R54, R137). From
them the statement InstancesComplete. -/

namespace Sys2Proof.Machine

variable {s v : State} {p : PortId} {k : SlotId} {x : Txn} {i j : TrigId} {r : Result} {area : List Byte} {E : Trigger}
  {d : InstanceData}

theorem satInc_toNat {w : Nat} (x : BitVec w) : (satInc x).toNat = min (2 ^ w - 1) (x.toNat + 1) := by
  have bound := x.isLt
  have top : (BitVec.allOnes w).toNat = 2 ^ w - 1 := BitVec.toNat_allOnes
  unfold satInc
  split
  next h =>
    rw [h, top]
    omega
  next h =>
    have below : x.toNat ≠ 2 ^ w - 1 := fun e => h (BitVec.eq_of_toNat_eq (e.trans top.symm))
    have one : x.toNat + 1 < 2 ^ w := by omega
    have sum : (x + 1).toNat = x.toNat + 1 := by
      rw [BitVec.toNat_add, show (1 : BitVec w).toNat = 1 % 2 ^ w from BitVec.toNat_ofNat .., Nat.add_mod_mod,
        Nat.mod_eq_of_lt one]
    rw [sum]
    omega

/-! ### The report decision (R135, R136) -/

theorem maskedDiffer_iff {mask a b : List Byte} : maskedDiffer mask a b = true ↔
    ∃ i < 8, byteAt a i &&& byteAt mask i ≠ byteAt b i &&& byteAt mask i := by
  simp [maskedDiffer]

theorem reportDecision_always (mode : E.mode = .always) : reportDecision E r area = true := by
  unfold reportDecision
  rw [mode]

theorem reportDecision_onError (mode : E.mode = .onError) : reportDecision E r area = true ↔ r ≠ .ok := by
  unfold reportDecision
  rw [mode]
  exact bne_iff_ne

theorem reportDecision_onChange (mode : E.mode = .onChange) : reportDecision E r area = true ↔
    E.first = true ∨ r ≠ E.lastStatus ∨ (r = .ok ∧
      ∃ i < 8, byteAt area i &&& byteAt E.mask i ≠ byteAt E.reference i &&& byteAt E.mask i) := by
  unfold reportDecision
  rw [mode]
  simp only [Bool.or_eq_true, Bool.and_eq_true, bne_iff_ne, beq_iff_eq, maskedDiffer_iff, or_assoc]

theorem reportDecision_onDelta (mode : E.mode = .onDelta) : reportDecision E r area = true ↔
    E.first = true ∨ r ≠ E.lastStatus ∨ (r = .ok ∧
      (E.deadband.toNat : Int) ≤ |signed16 area - signed16 E.reference|) := by
  unfold reportDecision
  rw [mode]
  simp only [Bool.or_eq_true, Bool.and_eq_true, bne_iff_ne, beq_iff_eq, decide_eq_true_eq, or_assoc, Int.abs_eq_natAbs,
    Nat.cast_le]

/-! ### The entry after a completion (R127, R134, R138) -/

/-- The entry once the fail limit has been applied (R138). -/
def Trigger.limited (E : Trigger) (r : Result) : Trigger := if E.limitReached r then E.disarmed else E

/-- The entry once its holdoff has been loaded (R127). -/
def Trigger.loaded (E : Trigger) : Trigger :=
  if E.kind = .alert && E.state == .armed then { E with holdoffCtr := E.holdoff, holdoffEnded := E.holdoff == 0 } else E

/-- The entry after a completion, its fail limit and its holdoff. -/
def Trigger.settled (E : Trigger) (r : Result) (area : List Byte) : Trigger := ((E.completed r area).limited r).loaded

theorem settled_eq : E.settled r area = { E.completed r area with
    state := (E.settled r area).state, downCounter := (E.settled r area).downCounter,
    holdoffCtr := (E.settled r area).holdoffCtr, latched := (E.settled r area).latched,
    holdoffEnded := (E.settled r area).holdoffEnded } := by
  unfold Trigger.settled Trigger.loaded Trigger.limited
  split <;> split <;> rfl

theorem limitReached_completed : (E.completed r area).limitReached r = true ↔
    E.state = .armed ∧ E.failLimit ≠ 0 ∧ r ≠ .ok ∧ (E.completed r area).consecutive = E.failLimit := by
  simp [Trigger.limitReached, Trigger.completed, and_assoc]

/-- Without the fail limit only the holdoff changes (R127). -/
theorem settled_of_ok (ok : r = .ok) : E.settled r area = (E.completed r area).loaded := by
  have free : (E.completed r area).limitReached r = false :=
    Bool.eq_false_iff.mpr fun h => (limitReached_completed.mp h).2.2.1 ok
  unfold Trigger.settled Trigger.limited
  rw [free, if_neg Bool.false_ne_true]

theorem loaded_state : E.loaded.state = E.state := by
  unfold Trigger.loaded
  split <;> rfl

theorem holdoffCtr_loaded (alert : E.kind = .alert) (armed : E.state = .armed) : E.loaded.holdoffCtr = E.holdoff := by
  unfold Trigger.loaded
  rw [if_pos (Bool.and_eq_true_iff.mpr ⟨decide_eq_true alert, beq_iff_eq.mpr armed⟩)]

theorem settled_of_limit (limit : (E.completed r area).limitReached r = true) : (E.settled r area).state = .disabled := by
  unfold Trigger.settled Trigger.limited
  rw [loaded_state, if_pos limit]
  rfl

/-! ### The operation (R134) -/

theorem trigger_applyFailLimit : (applyFailLimit i r s).trigger j =
    if i = j then (s.trigger j).limited r else s.trigger j := by
  unfold applyFailLimit Trigger.limited
  by_cases same : i = j
  · subst same
    rw [if_pos rfl]
    split
    · rw [setLatch_trigger, trigger_disarm, if_pos rfl]
    · rfl
  · rw [if_neg same]
    split
    · rw [setLatch_trigger, trigger_disarm, if_neg same]
    · rfl

theorem applyFailLimit_eq : applyFailLimit i r s =
    { s with trig := (applyFailLimit i r s).trig, mgmt := (applyFailLimit i r s).mgmt } := by
  unfold applyFailLimit
  split
  · rw [setLatch_eq, disarm_eq]
  · rfl

theorem trigger_loadHoldoff : (loadHoldoff i s).trigger j = if i = j then (s.trigger j).loaded else s.trigger j := by
  unfold loadHoldoff Trigger.loaded
  by_cases same : i = j
  · subst same
    rw [if_pos rfl]
    split
    · exact (trigger_modTrigger ..).trans (if_pos rfl)
    · rfl
  · rw [if_neg same]
    split
    · exact (trigger_modTrigger ..).trans (if_neg same)
    · rfl

theorem loadHoldoff_eq : loadHoldoff i s = { s with trig := (loadHoldoff i s).trig } := by
  unfold loadHoldoff
  split <;> rfl

theorem loadHoldoff_mgmt : (loadHoldoff i s).mgmt = s.mgmt := by rw [loadHoldoff_eq]

theorem completeCommand_mgmt {status : Status} {a b : Word} : completeCommand status a b s =
    { s with mgmt := (completeCommand status a b s).mgmt } ∧
      (completeCommand status a b s).mgmt.latches = s.mgmt.latches := by
  unfold completeCommand
  split <;> exact ⟨rfl, rfl⟩

theorem checkInstances_mgmt : checkInstances s = { s with mgmt := (checkInstances s).mgmt } ∧
    (checkInstances s).mgmt.latches = s.mgmt.latches := by
  unfold checkInstances
  split
  · split
    · split
      · exact ⟨rfl, rfl⟩
      · exact completeCommand_mgmt
    · exact ⟨rfl, rfl⟩
  · exact ⟨rfl, rfl⟩

theorem checkInstances_trig : (checkInstances s).trig = s.trig := by rw [checkInstances_mgmt.1]

theorem checkInstances_trigger : (checkInstances s).trigger j = s.trigger j := by
  unfold State.trigger
  rw [checkInstances_trig]

theorem trigger_completeInstance : (completeInstance i r area s).trigger j =
    if i = j then (s.trigger j).settled r area else s.trigger j := by
  unfold completeInstance
  rw [checkInstances_trigger, trigger_loadHoldoff, trigger_applyFailLimit, trigger_modTrigger]
  by_cases same : i = j
  · subst same
    rw [if_pos rfl, if_pos rfl, if_pos rfl, if_pos rfl]
    rfl
  · rw [if_neg same, if_neg same, if_neg same, if_neg same]

theorem completeInstance_eq : completeInstance i r area s =
    { s with trig := (completeInstance i r area s).trig, mgmt := (completeInstance i r area s).mgmt } := by
  unfold completeInstance
  rw [checkInstances_mgmt.1, loadHoldoff_eq, applyFailLimit_eq]
  rfl

/-- The fail limit's latch (R138). -/
theorem completeInstance_latch (limit : ((s.trigger i).completed r area).limitReached r = true) :
    ∃ x ∈ (completeInstance i r area s).mgmt.latches, x.latch = .triggerDisabled i := by
  have reached : ((s.modTrigger i fun E => E.completed r area).trigger i).limitReached r = true := by
    rw [trigger_modTrigger, if_pos rfl]
    exact limit
  unfold completeInstance
  rw [checkInstances_mgmt.2, loadHoldoff_mgmt, applyFailLimit, if_pos reached]
  exact setLatch_mem _ _

/-! ### What a completion makes of the trigger unit depends on it alone -/

theorem someArmed_of_trig (h : v.trig = s.trig) : v.someArmed = s.someArmed := by
  unfold State.someArmed State.trigger
  rw [h]

theorem applyFailLimit_trig (h : v.trig = s.trig) : (applyFailLimit i r v).trig = (applyFailLimit i r s).trig := by
  have entry : v.trigger i = s.trigger i := by
    unfold State.trigger
    rw [h]
  have armed : (v.modTrigger i Trigger.disarmed).trig = (s.modTrigger i Trigger.disarmed).trig := by
    unfold State.modTrigger
    rw [h]
  unfold applyFailLimit
  rw [entry]
  split
  · rw [setLatch_eq, setLatch_eq (s := disarm i s), disarm_eq, disarm_eq, someArmed_of_trig armed, h]
  · exact h

theorem loadHoldoff_trig (h : v.trig = s.trig) : (loadHoldoff i v).trig = (loadHoldoff i s).trig := by
  have entry : v.trigger i = s.trigger i := by
    unfold State.trigger
    rw [h]
  unfold loadHoldoff
  rw [entry]
  split
  · unfold State.modTrigger
    rw [h]
  · exact h

theorem completeInstance_trig (h : v.trig = s.trig) :
    (completeInstance i r area v).trig = (completeInstance i r area s).trig := by
  unfold completeInstance
  rw [checkInstances_trig, checkInstances_trig]
  exact loadHoldoff_trig (applyFailLimit_trig (by unfold State.modTrigger; rw [h]))

/-! ### The end of a triggered transaction's service (R54, R137) -/

theorem finalize_instance (held : s.txn k = some x) (origin : x.origin = .trigger i) : finalize k s = s.setSlot k .free := by
  unfold finalize
  rw [held]
  dsimp only
  rw [origin]

/-- A triggered transaction's data as its completion leaves them (R137, log entry 35). -/
def Txn.reportsAs (x : Txn) (d : InstanceData) (area : List Byte) (first : Bool) : Txn :=
  { x with trig := some { d with readArea := area, first := first } }

/-- The state `u` in which the service of a triggered transaction `x` of the entry `i`, in slot `k` of port `p`, has ended:
the trigger unit, the port, and the list once the transaction leaves it, the slot it releases without a report, or its
record. -/
structure InstanceEnd (p : PortId) (k : SlotId) (i : TrigId) (x : Txn) (d : InstanceData) (area : List Byte)
    (state : PortState) (s u : State) : Prop where
  trig : u.trig = (completeInstance i x.result area s).trig
  state : (u.port p).state = state
  left : (reportDecision (s.trigger i) x.result area = false ∨
      (s.cq x.cq).state = .running ∧ s.comp.holding.length < Config.holdingCapacity) →
    (u.port p).list = (s.port p).list.tail ∧ (u.port p).inService = none ∧
      (u.port p).stats.completed = (s.port p).stats.completed + 1
  silent : reportDecision (s.trigger i) x.result area = false → u.slots.get k = .free ∧ u.comp = s.comp
  reported : reportDecision (s.trigger i) x.result area = true → (s.cq x.cq).state = .running →
    s.comp.holding.length < Config.holdingCapacity →
    u.txn k = some { x.reportsAs d area (s.trigger i).first with state := .recorded } ∧
      u.comp = { s.comp with
        holding := s.comp.holding ++ [serviceEntry k (x.reportsAs d area (s.trigger i).first)] }

theorem InstanceEnd.congr {u : State} {state : PortState} (h : InstanceEnd p k i x d area state v u) (trig : v.trig = s.trig)
    (cqs : v.cqs = s.cqs) (comp : v.comp = s.comp) (list : (v.port p).list = (s.port p).list)
    (completed : (v.port p).stats.completed = (s.port p).stats.completed) : InstanceEnd p k i x d area state s u := by
  have entry : v.trigger i = s.trigger i := by
    unfold State.trigger
    rw [trig]
  have cq : v.cq x.cq = s.cq x.cq := by
    unfold State.cq
    rw [cqs]
  obtain ⟨unit, port, left, silent, reported⟩ := h
  rw [entry, cq, comp, list, completed] at left
  rw [entry, comp] at silent
  rw [entry, cq, comp] at reported
  exact ⟨unit.trans (completeInstance_trig trig), port, left, silent, reported⟩

/-- The state in which a triggered transaction in slot `k` has been handed to the trigger unit. -/
def State.instanceDone (s : State) (k : SlotId) (i : TrigId) (x : Txn) (d : InstanceData) (area : List Byte) : State :=
  (completeInstance i x.result area s).setSlot k (.txn (x.reportsAs d area (s.trigger i).first))

theorem instanceDone_eq : s.instanceDone k i x d area = { s with
    trig := (completeInstance i x.result area s).trig, mgmt := (completeInstance i x.result area s).mgmt,
    slots := (s.instanceDone k i x d area).slots } := by
  unfold State.instanceDone
  rw [completeInstance_eq]
  rfl

theorem instanceDone_trig : (s.instanceDone k i x d area).trig = (completeInstance i x.result area s).trig := by
  rw [instanceDone_eq]

theorem txn_instanceDone : (s.instanceDone k i x d area).txn k = some (x.reportsAs d area (s.trigger i).first) :=
  (txn_setSlot ..).trans (if_pos rfl)

theorem serviceEnd_instance (held : s.txn k = some x) (origin : x.origin = .trigger i) (isIt : x.trig = some d)
    (is : readAreaOf x.req (s.port p).inbound = area) : serviceEnd p k s =
      if reportDecision (s.trigger i) x.result area then post p k (s.instanceDone k i x d area)
      else leaveList p (finalize k (s.instanceDone k i x d area)) := by
  have still : (completeInstance i x.result area s).txn k = some x := by
    rw [completeInstance_eq]
    exact held
  unfold serviceEnd
  rw [held]
  dsimp only
  rw [origin, isIt]
  dsimp only
  rw [is, modTxn_of_txn still]
  rfl

theorem serviceEntry_instance (origin : x.origin = .trigger i) (isIt : x.trig = some d) :
    serviceEntry k x = ⟨reportRecord i x d, x.cq, x.req.notify, some k⟩ := by
  unfold serviceEntry
  rw [origin, isIt]

theorem offerService_refused {y : Txn} (posting : s.posting p = some (k, y)) (refused : tryOffer (serviceEntry k y) s = none) :
    offerService p s = s := by
  unfold offerService
  rw [posting]
  dsimp only
  rw [refused]

theorem offerService_taken {y : Txn} (posting : s.posting p = some (k, y))
    (taken : tryOffer (serviceEntry k y) s = some v) : offerService p s = serviceAccepted p k v := by
  unfold offerService
  rw [posting]
  dsimp only
  rw [taken]

/-- Whatever becomes of a triggered transaction's record, the port stays in its state and the trigger unit as it is. -/
theorem post_instance (served : (s.port p).inService = some k) (held : s.txn k = some x) (origin : x.origin = .trigger i)
    (alone : LeavesAlone s p) : (post p k s).trig = s.trig ∧ ((post p k s).port p).state = (s.port p).state := by
  have gone {v : State} (h : LeavesAlone v p) : (leaveList p v).trig = v.trig ∧
      ((leaveList p v).port p).state = (v.port p).state := by
    rw [leaveList_left h, port_modPort, if_pos rfl]
    exact ⟨rfl, rfl⟩
  let y : Txn := { x with state := .posting }
  have fixed : (s.setSlot k (.txn y)).txn k = some y := (txn_setSlot ..).trans (if_pos rfl)
  have posting : (s.setSlot k (.txn y)).posting p = some (k, y) := by
    unfold State.posting
    rw [show ((s.setSlot k (.txn y)).port p).inService = some k from served]
    dsimp only
    rw [fixed]
    rfl
  have offers : post p k s = offerService p (s.setSlot k (.txn y)) := by
    unfold post
    rw [modTxn_of_txn held]
  by_cases running : (s.cq x.cq).state = .running
  · by_cases room : s.comp.holding.length < Config.holdingCapacity
    · rw [post_eq served held running room alone, port_posted_self]
      exact ⟨rfl, rfl⟩
    · have refused : tryOffer (serviceEntry k y) (s.setSlot k (.txn y)) = none := (if_pos running).trans (if_neg room)
      rw [offers, offerService_refused posting refused]
      exact ⟨rfl, rfl⟩
  · have discarded : tryOffer (serviceEntry k y) (s.setSlot k (.txn y)) = some ((s.setSlot k (.txn y)).setSlot k .free) :=
      (if_neg running).trans (congrArg some ((discard_slot rfl).trans (finalize_instance fixed origin)))
    have free : ((s.setSlot k (.txn y)).setSlot k .free).txn k = none := (txn_setSlot ..).trans (if_pos rfl)
    rw [offers, offerService_taken posting discarded]
    unfold serviceAccepted
    rw [modTxn_of_none free]
    exact gone alone

theorem freed {f : Port → Port} : ((s.setSlot k .free).modPort p f).slots.get k = .free :=
  (slot_setSlot ..).trans (if_pos rfl)

section

variable (served : (s.port p).inService = some k) (held : s.txn k = some x) (origin : x.origin = .trigger i)
  (isIt : x.trig = some d) (is : readAreaOf x.req (s.port p).inbound = area) (alone : LeavesAlone s p)
include held origin isIt is alone

theorem instance_silent (silent : reportDecision (s.trigger i) x.result area = false) :
    serviceEnd p k s = ((s.instanceDone k i x d area).setSlot k .free).modPort p Port.left := by
  rw [serviceEnd_instance held origin isIt is, silent, if_neg Bool.false_ne_true,
    finalize_instance (i := i) txn_instanceDone origin]
  refine leaveList_left ?_
  rw [instanceDone_eq]
  exact alone

include served

theorem instance_reported (reports : reportDecision (s.trigger i) x.result area = true)
    (running : (s.cq x.cq).state = .running) (room : s.comp.holding.length < Config.holdingCapacity) :
    serviceEnd p k s =
      (s.instanceDone k i x d area).posted p k (x.reportsAs d area (s.trigger i).first) := by
  rw [serviceEnd_instance held origin isIt is, if_pos reports]
  refine post_eq ?_ txn_instanceDone ?_ ?_ ?_ <;> rw [instanceDone_eq]
  · exact served
  · exact running
  · exact room
  · exact alone

/-- What the end of a triggered transaction's service leaves (R54, R137). -/
theorem instance_ends : InstanceEnd p k i x d area (s.port p).state s (serviceEnd p k s) := by
  have ports : (s.instanceDone k i x d area).ports = s.ports := by rw [instanceDone_eq]
  have port : (s.instanceDone k i x d area).port p = s.port p := by
    unfold State.port
    rw [ports]
  have gone : (((s.instanceDone k i x d area).setSlot k .free).modPort p Port.left).port p = (s.port p).left := by
    rw [port_modPort, if_pos rfl, setSlot_port, port]
  have comp : (s.instanceDone k i x d area).comp = s.comp := by rw [instanceDone_eq]
  have silent (h : reportDecision (s.trigger i) x.result area = false) :=
    instance_silent held origin isIt is alone h
  have reported (h : reportDecision (s.trigger i) x.result area = true) :=
    instance_reported served held origin isIt is alone h
  have ends : (serviceEnd p k s).trig = (completeInstance i x.result area s).trig ∧
      ((serviceEnd p k s).port p).state = (s.port p).state := by
    cases decides : reportDecision (s.trigger i) x.result area with
    | false =>
      refine ⟨?_, ?_⟩
      · rw [silent decides, modPort_trig, setSlot_trig, instanceDone_trig]
      · rw [silent decides, gone, Port.left]
    | true =>
      have alone' : LeavesAlone (s.instanceDone k i x d area) p := by
        rw [instanceDone_eq]
        exact alone
      have posted := post_instance (port ▸ served) txn_instanceDone origin alone'
      rw [serviceEnd_instance held origin isIt is, if_pos decides]
      exact ⟨posted.1.trans instanceDone_trig, posted.2.trans (congrArg Port.state port)⟩
  refine ⟨ends.1, ends.2, fun leaves => ?_, fun decides => ?_, fun decides running room => ?_⟩
  · have left : (serviceEnd p k s).port p = (s.port p).left := by
      cases decides : reportDecision (s.trigger i) x.result area with
      | false =>
        rw [silent decides]
        exact gone
      | true =>
        obtain ⟨running, room⟩ := leaves.resolve_left (by rw [decides]; exact Bool.noConfusion)
        rw [reported decides running room, port_posted_self]
        exact congrArg Port.left port
    rw [left]
    exact ⟨rfl, rfl, rfl⟩
  · rw [silent decides]
    refine ⟨freed, ?_⟩
    rw [modPort_comp, setSlot_comp, comp]
  · rw [reported decides running room, txn_posted, if_pos rfl, posted_comp, comp]
    exact ⟨rfl, rfl⟩

end

/-- The same at the end of an attempt, after the port's moves on the bus. -/
theorem attemptEnd_instance {detail : Byte} {now : Word} (on : OnBus p s v) (eng : (v.port p).eng = (s.port p).eng)
    (served : (s.port p).inService = some k) (held : s.txn k = some x) (origin : x.origin = .trigger i)
    (isIt : x.trig = some d) (alone : LeavesAlone s p) :
    InstanceEnd p k i (x.finished (s.port p).eng r detail now) d (readAreaOf x.req (s.port p).inbound) (v.port p).state s
      (finishAttempt p (.result r detail) now v) := by
  have port : (v.engineReset p).port p = { v.port p with eng := Engine.reset } := port_engineReset
  have ends : startDraining p k (x.finished (s.port p).eng r detail now)
      ((v.engineReset p).setSlot k (.txn (x.finished (s.port p).eng r detail now))) =
      serviceEnd p k ((v.engineReset p).setSlot k (.txn (x.finished (s.port p).eng r detail now))) := by
    unfold startDraining
    rw [show (x.finished (s.port p).eng r detail now).origin = .trigger i from origin]
  rw [finishAttempt_result (on.inService.trans served) (on.txn.trans held), eng, ends]
  have holds (q : RqId) : (v.rq q).hold = none := by
    rw [on.eq]
    exact alone.1 q
  have moved := instance_ends (s := (v.engineReset p).setSlot k (.txn (x.finished (s.port p).eng r detail now)))
    (p := p) (k := k) (i := i) (d := d) (area := readAreaOf x.req (s.port p).inbound)
    (by exact (congrArg Port.inService port).trans (on.inService.trans served))
    ((txn_setSlot ..).trans (if_pos rfl)) origin isIt
    (by exact congrArg (readAreaOf x.req) ((congrArg Port.inbound port).trans on.inbound))
    ⟨holds, (congrArg Port.disablePending port).trans (on.pending.trans alone.2)⟩
  have state : (((v.engineReset p).setSlot k (.txn (x.finished (s.port p).eng r detail now))).port p).state =
      (v.port p).state := (congrArg Port.state port :)
  rw [state] at moved
  refine moved.congr ?_ ?_ ?_ ?_ ?_
  · exact (congrArg State.trig on.eq :)
  · exact (congrArg State.cqs on.eq :)
  · exact (congrArg State.comp on.eq :)
  · exact (congrArg Port.list port).trans on.list
  · exact (congrArg (·.stats.completed) port).trans on.completed

end Sys2Proof.Machine

namespace Sys2Proof.Proofs

open Sys2Proof.Machine

/-- Settles O59: the entry after a completion is `Trigger.settled`; the STOP that ends an attempt of a triggered
transaction comes to that completion. -/
theorem instancesComplete : Obligations.InstancesComplete := by
  refine ⟨?_, ?_⟩
  · intro s i r area E u report
    have entry : u.trigger i = E.settled r area := trigger_completeInstance.trans (if_pos rfl)
    have decides : reportDecision E r area = true ↔ report := by
      cases mode : (s.trigger i).mode with
      | always => simpa only [report, E, mode, iff_true] using reportDecision_always mode
      | onError => simpa only [report, E, mode] using reportDecision_onError mode
      | onChange => simpa only [report, E, mode] using reportDecision_onChange mode
      | onDelta => simpa only [report, E, mode] using reportDecision_onDelta mode
    have kept : u.trigger i = { E.completed r area with
        state := (E.settled r area).state, downCounter := (E.settled r area).downCounter,
        holdoffCtr := (E.settled r area).holdoffCtr, latched := (E.settled r area).latched,
        holdoffEnded := (E.settled r area).holdoffEnded } := entry.trans settled_eq
    have consecutive : (u.trigger i).consecutive = (E.completed r area).consecutive := (congrArg Trigger.consecutive kept :)
    have failures : (u.trigger i).failures = if r = .ok then E.failures else satInc E.failures :=
      (congrArg Trigger.failures kept :)
    have reference : (u.trigger i).reference = if reportDecision E r area then area else E.reference :=
      (congrArg Trigger.reference kept :)
    have status : (u.trigger i).lastStatus = if reportDecision E r area then r else E.lastStatus :=
      (congrArg Trigger.lastStatus kept :)
    have counted : (u.trigger i).reports = if reportDecision E r area then satInc E.reports else E.reports :=
      (congrArg Trigger.reports kept :)
    refine ⟨(congrArg Trigger.outstanding kept :), (congrArg Trigger.first kept :),
      (congrArg (fun E => E.instances.toNat) kept).trans (satInc_toNat _), fun ok => ⟨?_, ?_, ?_⟩,
      fun failed => ⟨?_, ?_⟩, decides, fun reports => ⟨?_, ?_, ?_⟩, fun silent => ⟨?_, ?_, ?_⟩,
      fun failed armed limit reached => ?_, fun armed alert ok => ?_, fun w other => ?_, completeInstance_eq⟩
    · exact consecutive.trans (if_pos ok)
    · exact failures.trans (if_pos ok)
    · rw [entry, settled_of_ok ok, loaded_state]
      rfl
    · rw [consecutive, show (E.completed r area).consecutive = satInc E.consecutive from if_neg failed]
      exact satInc_toNat _
    · rw [failures, if_neg failed]
      exact satInc_toNat _
    · exact reference.trans (if_pos (decides.mpr reports))
    · exact status.trans (if_pos (decides.mpr reports))
    · rw [counted, if_pos (decides.mpr reports)]
      exact satInc_toNat _
    · exact reference.trans (if_neg fun reports => silent (decides.mp reports))
    · exact status.trans (if_neg fun reports => silent (decides.mp reports))
    · exact counted.trans (if_neg fun reports => silent (decides.mp reports))
    · have hit : (E.completed r area).limitReached r = true :=
        limitReached_completed.mpr ⟨armed, limit, failed, consecutive.symm.trans reached⟩
      refine ⟨?_, completeInstance_latch hit⟩
      rw [entry]
      exact settled_of_limit hit
    · rw [entry, settled_of_ok ok]
      exact holdoffCtr_loaded alert armed
    · exact trigger_completeInstance.trans (if_neg (Ne.symm other))
  · intro s p k x i d r detail up served held origin isIt closing decided loud told alone area d' done
    have stop := exec_stop_ends up served held (mayStop_iff.mpr (.inl closing)) loud told (.inl decided)
    have eng : ((s.stopMade p).port p).eng = (s.port p).eng := by
      rw [port_stopMade told]
      rfl
    have idle : ((s.stopMade p).port p).state = .idle := by
      rw [port_stopMade told]
      rfl
    have w := attemptEnd_instance (v := s.stopMade p) (r := r) (detail := detail) (now := s.timebase) (d := d)
      (onBus_stopMade told) eng served held origin isIt alone
    refine ⟨_, stop, w.trig, w.state.trans idle, w.left, w.silent, fun reports running room => ?_⟩
    obtain ⟨recorded, offered⟩ := w.reported reports running room
    refine ⟨recorded, offered.trans ?_⟩
    rw [serviceEntry_instance (i := i) (d := d') (by exact origin) rfl]
    rfl

end Sys2Proof.Proofs
end

section
/-! SUPPORT. The bus monitor (R88, R91): another device's START and STOP, the idle time, and the losses they bring
(R71, R78). From them the statement MonitorFollowsTheBus. -/

namespace Sys2Proof.Machine

variable {s v u : State} {p : PortId} {q : RqId} {k : SlotId} {t x : Txn} {place : LossPlace} {b starts : Bool}
  {P Q : Port}

/-! ### The verdict (R88) -/

theorem port_setVerdict : (setVerdict p b s).port p = { s.port p with busFree := b } :=
  (port_modPort ..).trans (if_pos rfl)

theorem state_setVerdict : ((setVerdict p b s).port p).state = (s.port p).state := by rw [port_setVerdict]

theorem told_setVerdict : ((setVerdict p b s).port p).tgt.disableTold = (s.port p).tgt.disableTold := by
  rw [port_setVerdict]

theorem takesBits_setVerdict : (setVerdict p b s).takesBits p = s.takesBits p := by
  unfold State.takesBits
  rw [port_setVerdict]
  rfl

theorem lossAtStart_setVerdict : (setVerdict p b s).lossAtStart p = s.lossAtStart p := by
  unfold State.lossAtStart
  rw [takesBits_setVerdict, port_setVerdict]

theorem takesBits_iff (served : (s.port p).inService = some k) (held : s.txn k = some t) : s.takesBits p = true ↔
    (s.port p).eng.phase = .receiving ∨
      (s.port p).eng.phase = .checking ∧ (t.req.seg (s.port p).eng.segment).kind ≠ .write := by
  unfold State.takesBits
  dsimp only
  rw [served]
  dsimp only
  rw [held]
  simp [← writes_iff]

theorem takesBits_of_not (receives : (s.port p).eng.phase ≠ .receiving) (checks : (s.port p).eng.phase ≠ .checking) :
    s.takesBits p = false := by
  unfold State.takesBits
  split
  · split
    · simp [receives, checks]
    · rfl
  · rfl

theorem lossAtStart_opening (opening : (s.port p).eng.phase = .opening) :
    s.lossAtStart p = some (if (s.port p).eng.restart then .restart else .start) := if_pos opening

theorem lossAtStart_taking (other : (s.port p).eng.phase ≠ .opening) (takes : s.takesBits p = true) :
    s.lossAtStart p = some .data := (if_neg other).trans (if_pos takes)

theorem told_touch_setVerdict : ((touch p (setVerdict p b s)).port p).tgt.disableTold = (s.port p).tgt.disableTold := by
  unfold touch setVerdict
  rw [modPort_modPort, port_modPort, if_pos rfl]

theorem loses_taking {kind : Prop} (taking : (s.port p).eng.phase = .receiving ∨ (s.port p).eng.phase = .checking ∧ kind)
    (takes : s.takesBits p = true) : s.lossAtStart p = some .data := by
  refine lossAtStart_taking (fun opening => ?_) takes
  rcases taking with receiving | ⟨checking, -⟩
  · cases opening.symm.trans receiving
  · cases opening.symm.trans checking

theorem port_startTaken : (s.startTaken p).port p = { s.port p with
    busFree := false, idleFrom := s.timebase, clockLowFrom := s.timebase, stuckDataFrom := s.timebase } :=
  (port_modPort ..).trans (if_pos rfl)

/-! ### The rows (R88, R91) -/

theorem startSeen_off (off : (s.port p).state = .off) : startSeen p s = s := if_pos off

theorem stopSeen_off (off : (s.port p).state = .off) : stopSeen p s = s := if_pos off

theorem idleTimeExpiry_self (h : (s.port p).state = .off ∨
    (s.timebase - (s.port p).idleFrom).toNat < (s.port p).cfg.idleTime.toNat * 10) : idleTimeExpiry p s = s := by
  refine if_neg fun both => ?_
  obtain ⟨on, passed⟩ := Bool.and_eq_true_iff.mp both
  rcases h with off | early
  · exact bne_iff_ne.mp on off
  · exact absurd (of_decide_eq_true passed) (Nat.not_le.mpr early)

/-- A START seen in IDLE or OBSERVING: the port observes the transfer (R91). -/
theorem startSeen_observes (run : Running s) (state : (s.port p).state = .idle ∨ (s.port p).state = .observing)
    (told : (s.port p).tgt.disableTold = false) : startSeen p s = s.modPort p fun P => { P with
      idleFrom := s.timebase, clockLowFrom := s.timebase, stuckDataFrom := s.timebase, busFree := false,
      state := .observing, awaitAddr := true, tgt := { P.tgt with transfer := .none } } := by
  have observes : observeStart p (touch p (setVerdict p false s)) = s.modPort p fun P => { P with
      idleFrom := s.timebase, clockLowFrom := s.timebase, stuckDataFrom := s.timebase, busFree := false,
      state := .observing, awaitAddr := true, tgt := { P.tgt with transfer := .none } } := by
    unfold observeStart touch setVerdict
    dsimp only
    rw [modPort_modPort, modPort_modPort, port_modPort, if_pos rfl, if_neg (by rw [told]; exact Bool.false_ne_true)]
    rfl
  have running : (touch p (setVerdict p false s)).link.ctrl = .running := run.2
  unfold startSeen
  dsimp only
  rw [state_setVerdict]
  rcases state with state | state <;> rw [state, if_neg (by nofun)] <;> exact (if_pos running).trans observes

/-- A START of another device where the engine opens a segment or takes a byte from the lines is a loss (R68, R71). -/
theorem startSeen_loses (master : (s.port p).state = .master) (loses : s.lossAtStart p = some place) :
    startSeen p s = loseArbitration p place true (setVerdict p false s) := by
  unfold startSeen
  dsimp only
  rw [state_setVerdict, master,
    if_neg (by nofun), lossAtStart_setVerdict, loses]

/-- The port that has entered IDLE as the transfer it observed ended (R91). -/
def Port.observed (P : Port) (now : Word) : Port :=
  { P with
    state := .idle, inStep := true, busFree := true, awaitAddr := false, reason := none, enabling := false,
    clockLowFrom := now, stuckDataFrom := now, tgt := { P.tgt with transfer := .none } }

theorem observeEnd_eq (told : (s.port p).tgt.disableTold = false) (waits : s.commandAt (.port p .enable) = false) :
    observeEnd p s = s.modPort p fun P => P.observed s.timebase := by
  unfold observeEnd
  rw [modTarget_eq, enterIdle_eq (by rw [port_modPort, if_pos rfl]; exact told) (by exact waits), modPort_modPort]
  rfl

theorem observeEnd_enabled {e : List Byte} (told : (s.port p).tgt.disableTold = false)
    (command : s.mgmt.command = some { entry := e, phase := .port p .enable }) :
    observeEnd p s = answered e .success 0 0 (s.modPort p fun P => P.observed s.timebase) := by
  unfold observeEnd
  rw [modTarget_eq, enterIdle_enabled (by rw [port_modPort, if_pos rfl]; exact told) (by exact command), modPort_modPort]
  rfl

theorem stopSeen_enabling (on : (s.port p).state ≠ .off) (enabling : (s.port p).enabling = true) :
    stopSeen p s = touch p s := (if_neg on).trans (if_pos enabling)

/-- A STOP of another device within a byte the engine takes from the lines is a loss (R71), and the port enters IDLE. -/
theorem stopSeen_loses (run : Running u) (master : (s.port p).state = .master) (done : (s.port p).enabling = false)
    (takes : s.takesBits p = true) (is : loseArbitration p .data false (setVerdict p true s) = u)
    (state : (u.port p).state = .observing) : stopSeen p s = observeEnd p u := by
  have here : (decide (PortState.master = PortState.master) && true) = true := rfl
  unfold stopSeen
  dsimp only
  rw [state_setVerdict, master, if_neg (by nofun), if_neg (by rw [done]; exact Bool.false_ne_true),
    takesBits_setVerdict, takes, if_pos here, is]
  exact if_pos (by rw [state, run.2]; rfl)

/-- Elsewhere a STOP makes the verdict FREE, and ends what the port observes (R88, R91). -/
theorem stopSeen_plain (on : (s.port p).state ≠ .off) (done : (s.port p).enabling = false)
    (plain : (s.port p).state ≠ .master ∨ s.takesBits p = false) : stopSeen p s =
      if (s.port p).state = .observing && s.link.ctrl == .running then observeEnd p (touch p (setVerdict p true s))
      else touch p (setVerdict p true s) := by
  have master : ((decide ((s.port p).state = .master)) && (setVerdict p true s).takesBits p) = false := by
    rw [takesBits_setVerdict]
    rcases plain with other | none
    · rw [decide_eq_false other, Bool.false_and]
    · rw [none, Bool.and_false]
  have state : ((touch p (setVerdict p true s)).port p).state = (s.port p).state := by
    unfold touch setVerdict
    rw [modPort_modPort, port_modPort, if_pos rfl]
  unfold stopSeen
  dsimp only
  rw [if_neg on, if_neg (by rw [done]; exact Bool.false_ne_true),
    state_setVerdict, master,
    if_neg Bool.false_ne_true, state]
  rfl

theorem idleTimeExpiry_passed (on : (s.port p).state ≠ .off)
    (passed : (s.port p).cfg.idleTime.toNat * 10 ≤ (s.timebase - (s.port p).idleFrom).toNat) : idleTimeExpiry p s =
      if (s.port p).state = .observing && s.link.ctrl == .running then observeEnd p (setVerdict p true s)
      else setVerdict p true s := by
  have passes : s.idleTimePassed p = true := decide_eq_true passed
  unfold idleTimeExpiry
  rw [passes, if_pos (Bool.and_eq_true_iff.mpr ⟨bne_iff_ne.mpr on, rfl⟩)]
  dsimp only
  rw [state_setVerdict]
  rfl

/-! ### What a loss the monitor brings leaves (R78, R80) -/

/-- A move of the port that its scheduler does not see. -/
def KeepsService (f : Port → Port) : Prop := ∀ P, (f P).list = P.list ∧ (f P).inService = P.inService ∧
  (f P).pendingResult = P.pendingResult ∧ (f P).inbound = P.inbound ∧ (f P).stats = P.stats

theorem keepsService_observed {now : Word} : KeepsService fun P => P.observed now := fun _ => ⟨rfl, rfl, rfl, rfl, rfl⟩

theorem RecordPosted.moves {f : Port → Port} (keeps : KeepsService f) (h : RecordPosted s u p k x) :
    RecordPosted s (u.modPort p f) p k x := by
  obtain ⟨comp, entry, listed, service, result, counted, rqs, cqs⟩ := h
  obtain ⟨list, serving, pending, -, stats⟩ := keeps (u.port p)
  refine ⟨comp, entry, ?_, ?_, ?_, ?_, rqs, cqs⟩ <;> rw [port_modPort, if_pos rfl]
  exacts [list.trans listed, serving.trans service, pending.trans result, by rw [stats]; exact counted]

theorem Drains.moves {f : Port → Port} {bytes : List (Nat × Byte)} (keeps : KeepsService f)
    (h : Drains s u p k x bytes) : Drains s (u.modPort p f) p k x bytes := by
  obtain ⟨entry, accesses, service, listed, inbound, counted, comp, rqs, cqs, others⟩ := h
  obtain ⟨list, serving, -, received, stats⟩ := keeps (u.port p)
  refine ⟨entry, accesses, ?_, ?_, ?_, ?_, comp, rqs, cqs, others⟩ <;> rw [port_modPort, if_pos rfl]
  exacts [serving.trans service, list.trans listed, received.trans inbound, by rw [stats]; exact counted]

/-- The port, once `P`, whose engine has lost with the verdict `free`, after its attempt. -/
def Port.LostTo (P Q : Port) (reached : List FaultReason) (free : Bool) (state : PortState) : Prop :=
  Q.state = state ∧ Q.busFree = free ∧ Q.awaitAddr = !free ∧ Q.eng = Engine.reset ∧ Q.sclDriven = false ∧
    Q.sdaDriven = false ∧ Q.tied = P.tied ++ reached ∧ Q.stats.arbLosses = P.stats.arbLosses + 1

theorem lostTo_finished {reached : List FaultReason} {now : Word}
    (h : ({ P with busFree := false }.lost true reached now).Finished Q) : P.LostTo Q reached false .observing := by
  obtain ⟨state, await, verdict, scl, sda, eng, tied, losses, -⟩ := finished_lost h
  exact ⟨state, verdict, await, eng, scl, sda, tied, losses⟩

theorem lostTo_observed {reached : List FaultReason} {now : Word}
    (h : ({ P with busFree := true }.lost false reached now).Finished Q) :
    P.LostTo (Q.observed now) reached true .idle := by
  obtain ⟨-, -, -, scl, sda, eng, tied, losses, -⟩ := finished_lost h
  exact ⟨rfl, rfl, rfl, eng, scl, sda, tied, losses⟩

/-- The state at the end of an attempt lost at `place` with its arbitration retries used up (R80). -/
def State.arbEnded (s : State) (p : PortId) (place : LossPlace) (free starts : Bool) : State :=
  finishAttempt p (.result .arbLost (lossDetail place)) s.timebase ((setVerdict p free s).lost p starts)

theorem port_verdict_lost : ((setVerdict p b s).lost p starts).port p =
    { s.port p with busFree := b }.lost starts (s.timeoutsReached p) s.timebase := by
  rw [port_lost, port_setVerdict]
  exact congrArg (fun l => Port.lost _ starts l s.timebase)
    (timeoutsReached_congr (by rw [port_setVerdict]) rfl (by rw [port_setVerdict]) (by rw [port_setVerdict]))

theorem onBus_verdict_lost : OnBus p s ((setVerdict p b s).lost p starts) := by
  refine ⟨rfl, ?_, ?_, ?_, ?_, ?_⟩ <;> rw [port_verdict_lost] <;> rfl

/-- A lost attempt of a request that ends posts its record, or drains first (R51, R80). -/
theorem arbEnded_leaves {c : Instr} {f : Port → Port} {state : PortState} {free : Bool}
    (served : (s.port p).inService = some k) (held : s.txn k = some t) (keeps : KeepsService f)
    (ends : ∀ Q, ({ s.port p with busFree := b }.lost starts (s.timeoutsReached p) s.timebase).Finished Q →
      (s.port p).LostTo (f Q) (s.timeoutsReached p) free state)
    (is : ServiceOnly k s (s.arbEnded p place b starts) →
      ({ s.port p with busFree := b }.lost starts (s.timeoutsReached p) s.timebase).Finished
        ((s.arbEnded p place b starts).port p) → exec c s = .next ((s.arbEnded p place b starts).modPort p f)) :
    let done : Txn := { t with
      state := .posting, started := some (t.started.getD s.timebase), result := .arbLost, detail := lossDetail place,
      segIndex := (s.port p).eng.segmentUnderWay, writeCount := (s.port p).eng.writeCount,
      readCount := (s.port p).eng.readCount, endTime := s.timebase }
    ((s.port p).eng.readCount = 0 → CanPost s p t → ∃ u, exec c s = .next u ∧ RecordPosted s u p k done ∧
      (s.port p).LostTo (u.port p) (s.timeoutsReached p) free state) ∧
    ∀ q, (s.port p).eng.readCount ≠ 0 → t.origin = .rq q → ∃ u, exec c s = .next u ∧
      Drains s u p k done (s.port p).inbound ∧ (s.port p).LostTo (u.port p) (s.timeoutsReached p) free state := by
  have on : OnBus p s ((setVerdict p b s).lost p starts) := onBus_verdict_lost
  have count : (((setVerdict p b s).lost p starts).port p).eng.readCount = (s.port p).eng.readCount := by
    rw [port_verdict_lost]
    rfl
  have done : ({ t.finished (((setVerdict p b s).lost p starts).port p).eng .arbLost (lossDetail place) s.timebase with
      state := .posting } : Txn) = { t with
        state := .posting, started := some (t.started.getD s.timebase), result := .arbLost, detail := lossDetail place,
        segIndex := (s.port p).eng.segmentUnderWay, writeCount := (s.port p).eng.writeCount,
        readCount := (s.port p).eng.readCount, endTime := s.timebase } := by
    rw [port_verdict_lost]
    rfl
  have moved : ((s.arbEnded p place b starts).modPort p f).port p = f ((s.arbEnded p place b starts).port p) :=
    (port_modPort ..).trans (if_pos rfl)
  refine ⟨fun unread can => ?_, fun q read origin => ?_⟩
  · obtain ⟨posted, finished, only⟩ := on.posts (r := .arbLost) (d := lossDetail place) (now := s.timebase) served held
      (count.trans unread) (.inl nofun) can
    rw [done] at posted
    rw [port_verdict_lost] at finished
    refine ⟨_, is (only.of_ports rfl) finished, posted.moves keeps, ?_⟩
    rw [moved]
    exact ends _ finished
  · obtain ⟨drained, finished, only⟩ := on.drains (r := .arbLost) (d := lossDetail place) (now := s.timebase) served held
      (fun none => read (count.symm.trans none)) origin
    rw [done] at drained
    rw [port_verdict_lost] at finished
    refine ⟨_, is (only.of_ports rfl) finished, drained.moves keeps, ?_⟩
    rw [moved]
    exact ends _ finished

section

variable (master : (s.port p).state = .master) (loud : (s.port p).eng.quiet = false)
  (undecided : (s.port p).eng.outcome = none) (served : (s.port p).inService = some k) (held : s.txn k = some t)
include master loud undecided served held

section

variable (loses : s.lossAtStart p = some place)
include loses

theorem startSeen_retries (left : t.arbUsed < t.req.arbRetries.toNat) (free : (s.port p).disablePending = false) :
    startSeen p s =
      ((setVerdict p false s).lost p true).retrying p k { t with arbUsed := t.arbUsed + 1 } s.timebase := by
  rw [startSeen_loses master loses]
  refine loseArbitration_retries ?_ ?_ ?_ held left ?_ <;> rw [port_setVerdict]
  exacts [loud, undecided, served, free]

theorem startSeen_ends (used : t.req.arbRetries.toNat ≤ t.arbUsed) : startSeen p s = s.arbEnded p place false true := by
  rw [startSeen_loses master loses]
  refine loseArbitration_ends ?_ ?_ ?_ held used <;> rw [port_setVerdict]
  exacts [loud, undecided, served]

end

variable (run : Running s) (done : (s.port p).enabling = false) (takes : s.takesBits p = true)
  (told : (s.port p).tgt.disableTold = false) (command : s.commandAt (.port p .enable) = false)
include run done takes told command

theorem stopSeen_retries (left : t.arbUsed < t.req.arbRetries.toNat) (free : (s.port p).disablePending = false) :
    stopSeen p s =
      (((setVerdict p true s).lost p false).retrying p k { t with arbUsed := t.arbUsed + 1 } s.timebase).modPort p
        fun P => P.observed s.timebase := by
  have is : loseArbitration p .data false (setVerdict p true s) =
      ((setVerdict p true s).lost p false).retrying p k { t with arbUsed := t.arbUsed + 1 } s.timebase := by
    refine loseArbitration_retries ?_ ?_ ?_ held left ?_ <;> rw [port_setVerdict]
    exacts [loud, undecided, served, free]
  rw [stopSeen_loses (by exact run) master done takes is (by rw [port_retrying, port_verdict_lost]; rfl),
    observeEnd_eq (by rw [port_retrying, port_verdict_lost]; exact told) (by exact command)]
  rfl

theorem stopSeen_ends (used : t.req.arbRetries.toNat ≤ t.arbUsed)
    (only : ServiceOnly k s (s.arbEnded p .data true false))
    (finished : ({ s.port p with busFree := true }.lost false (s.timeoutsReached p) s.timebase).Finished
      ((s.arbEnded p .data true false).port p)) :
    stopSeen p s = (s.arbEnded p .data true false).modPort p fun P => P.observed s.timebase := by
  have is : loseArbitration p .data false (setVerdict p true s) = s.arbEnded p .data true false := by
    refine loseArbitration_ends ?_ ?_ ?_ held used <;> rw [port_setVerdict]
    exacts [loud, undecided, served]
  obtain ⟨link, time, mgmt⟩ : (s.arbEnded p .data true false).link = s.link ∧
      (s.arbEnded p .data true false).timebase = s.timebase ∧ (s.arbEnded p .data true false).mgmt = s.mgmt := by
    rw [only.1]
    exact ⟨rfl, rfl, rfl⟩
  have waits : (s.arbEnded p .data true false).commandAt (.port p .enable) = false := by
    unfold State.commandAt
    rw [mgmt]
    exact command
  have run' : Running (s.arbEnded p .data true false) := by
    unfold Running
    rw [link]
    exact run
  rw [stopSeen_loses run' master done takes is (congrArg Port.state finished),
    observeEnd_eq ((congrArg (fun P => P.tgt.disableTold) finished).trans told) waits, time]

end

end Sys2Proof.Machine

namespace Sys2Proof.Proofs

open Sys2Proof.Machine

/-- Settles O51: each row by the state the port is in. -/
theorem monitorFollowsTheBus : Obligations.MonitorFollowsTheBus := by
  intro s p up told free touched
  have starts : exec (.busStartSeen p) s = .next (startSeen p s) := congrArg Host.Outcome.next (awake_of_awake up)
  have stops : exec (.busStopSeen p) s = .next (stopSeen p s) := congrArg Host.Outcome.next (awake_of_awake up)
  have idles : exec (.idleTimeExpiry p) s = .next (idleTimeExpiry p s) := congrArg Host.Outcome.next (awake_of_awake up)
  rw [starts, stops, idles]
  refine ⟨fun off => ?_, fun run state => ?_, ?_, ?_, ?_, fun w run state waits => ?_, fun on => ⟨fun enabling => ?_,
    fun done => ⟨fun run state command => ?_, fun other plain => ?_⟩, fun early => ?_,
    fun passed => ⟨fun other => ?_, fun run state => ⟨fun command => ?_, fun e command => ?_⟩⟩⟩⟩
  · rw [startSeen_off off, stopSeen_off off, idleTimeExpiry_self (.inl off)]
    exact ⟨rfl, rfl, rfl⟩
  · rw [startSeen_observes run state told]
  · intro k t master opening undecided loud served held free left
    refine ⟨_, congrArg _ (startSeen_retries master loud undecided served held (lossAtStart_opening opening) left free), ?_⟩
    rw [port_retrying, port_verdict_lost]
    exact ⟨txn_retrying, rfl, rfl, rfl, rfl, rfl⟩
  · intro k t master served held taking undecided loud free left lost
    have takes : s.takesBits p = true := (takesBits_iff served held).mpr taking
    refine ⟨⟨_, congrArg _ (startSeen_retries master loud undecided served held (loses_taking taking takes) left free), ?_⟩,
      fun run enabled command => ⟨_, congrArg _
        (stopSeen_retries master loud undecided served held run enabled takes told command left free), ?_⟩⟩
    · unfold lost
      rw [port_retrying, port_verdict_lost]
      exact ⟨⟨txn_retrying, rfl, rfl, rfl, rfl, rfl, rfl⟩, rfl⟩
    · unfold lost
      rw [port_modPort, if_pos rfl, port_retrying, port_verdict_lost]
      exact ⟨⟨txn_retrying, rfl, rfl, rfl, rfl, rfl, rfl⟩, rfl⟩
  · intro k t place master served held undecided loud free used E restarts done lost
    have begins (loses : s.lossAtStart p = some place) : lost (.busStartSeen p) false .observing :=
      arbEnded_leaves (b := false) (starts := true) (f := id) served held (fun _ => ⟨rfl, rfl, rfl, rfl, rfl⟩)
        (fun Q finished => lostTo_finished finished) fun _ _ => by
          rw [starts, startSeen_ends master loud undecided served held loses used, modPort_self rfl]
    refine ⟨fun opening here => begins ((lossAtStart_opening opening).trans ?_), fun taking here => ?_⟩
    · rw [here]
      unfold restarts E
      rw [opening]
      rfl
    · have takes : s.takesBits p = true := (takesBits_iff served held).mpr taking
      subst here
      refine ⟨begins (loses_taking taking takes), fun run enabled command => ?_⟩
      exact arbEnded_leaves (b := true) (starts := false) (f := fun P => P.observed s.timebase) served held
        keepsService_observed (fun Q finished => lostTo_observed finished) fun only finished => by
          rw [stops, stopSeen_ends master loud undecided served held run enabled takes told command used only finished]
  · refine ⟨(s.startTaken p).busied p true, congrArg _ ?_, ?_, restarted_latch⟩
    · rw [startSeen_recovering run state (.inl ⟨waits, rfl⟩), told]
      rfl
    · rw [busied_port, port_startTaken]
      rfl
  · rw [stopSeen_enabling on enabling]
    rfl
  · rw [stopSeen_plain on done (.inl (by rw [state]; nofun)), if_pos (by rw [state, run.2]; rfl),
      observeEnd_eq (told_touch_setVerdict.trans told) (by exact command)]
    unfold touch setVerdict
    rw [modPort_modPort, modPort_modPort]
    rfl
  · have no : ¬ (decide ((s.port p).state = .observing) && s.link.ctrl == .running) = true := by
      rw [decide_eq_false other]
      exact Bool.false_ne_true
    rw [stopSeen_plain on done, if_neg no]
    · unfold touch setVerdict
      rw [modPort_modPort]
      rfl
    · by_cases master : (s.port p).state = .master
      · exact .inr (takesBits_of_not (plain master).1 (plain master).2)
      · exact .inl master
  · rw [idleTimeExpiry_self (.inr early)]
  · rw [idleTimeExpiry_passed on passed, if_neg (by rw [decide_eq_false other]; exact Bool.false_ne_true)]
    rfl
  · rw [idleTimeExpiry_passed on passed, if_pos (by rw [state, run.2]; rfl), observeEnd_eq (told_setVerdict.trans told) (by exact command)]
    unfold setVerdict
    rw [modPort_modPort]
    rfl
  · rw [idleTimeExpiry_passed on passed, if_pos (by rw [state, run.2]; rfl),
      observeEnd_enabled (told_setVerdict.trans told) (by exact command)]
    unfold setVerdict
    rw [modPort_modPort]
    rfl

end Sys2Proof.Proofs
end

section
/-! SUPPORT. The bus timeouts (R95, R96): when an expiry is taken, and what it makes of the port and of the attempt in
progress (R60, R97, R100). From them the statement TimeoutsExpire. -/

namespace Sys2Proof.Machine

variable {s u v w : State} {p : PortId} {q : RqId} {k : SlotId} {t x : Txn} {c : Instr} {reason : FaultReason}
  {detail : Byte} {count : Stats → Stats} {since : Word}

/-! ### The two rows (R96) -/

/-- The row `c` of a timer that has run since the moment `started` gives. -/
structure TimeoutRow (p : PortId) (c : Instr) (started : State → Word) (reason : FaultReason) (detail : Byte)
    (count : Stats → Stats) : Prop where
  runs : ∀ s, exec c s = .next (awake s fun s => if s.expires p reason (started s) then
    timeoutEffects p reason detail (s.modStats p count) else s)
  reached : ∀ s, reason ∈ s.timeoutsReached p ↔ (s.port p).cfg.busTimeout ≠ 0 ∧
    (s.port p).cfg.busTimeout.toNat * 1000 ≤ (s.timebase - started s).toNat
  completed : ∀ x, (count x).completed = x.completed
  faults : ∀ x, (count x).faults = x.faults

theorem timeoutRow_of (which : (c, since, reason, detail, count) = (.clockLowTimeout p, (s.port p).clockLowFrom,
      FaultReason.clockLow, 1, fun x => { x with clockLow := x.clockLow + 1 }) ∨
    (c, since, reason, detail, count) = (.stuckDataTimeout p, (s.port p).stuckDataFrom,
      FaultReason.dataLow, 2, fun x => { x with stuckData := x.stuckData + 1 })) :
    ∃ started : State → Word, started s = since ∧ TimeoutRow p c started reason detail count := by
  simp only [Prod.mk.injEq] at which
  rcases which with ⟨rfl, rfl, rfl, rfl, rfl⟩ | ⟨rfl, rfl, rfl, rfl, rfl⟩
  · exact ⟨fun s => (s.port p).clockLowFrom, rfl, fun _ => rfl, fun _ => clockLow_mem_timeoutsReached, fun _ => rfl,
      fun _ => rfl⟩
  · exact ⟨fun s => (s.port p).stuckDataFrom, rfl, fun _ => rfl, fun _ => dataLow_mem_timeoutsReached, fun _ => rfl,
      fun _ => rfl⟩

/-! ### When a timer expires (R95, R96) -/

theorem timersRun_iff : s.timersRun p = true ↔ (s.port p).cfg.busTimeout ≠ 0 ∧
    (s.port p).state ∈ [PortState.idle, .observing, .master, .target] ∧
    (s.link.ctrl = .running ∨ s.link.ctrl = .stopping ∧ (s.port p).eng.quiet = true) := by
  simp [State.timersRun, and_assoc, or_assoc]

theorem expires_iff : s.expires p reason since = true ↔ s.timersRun p = true ∧
    ((s.port p).cfg.busTimeout.toNat * 1000 ≤ (s.timebase - since).toNat ∨ reason ∈ (s.port p).tied) := by
  unfold State.expires State.timeoutPassed State.since
  rw [Bool.and_eq_true_iff, Bool.or_eq_true_iff, decide_eq_true_iff, List.contains_iff_mem]

section

variable {started : State → Word} (row : TimeoutRow p c started reason detail count)
include row

theorem TimeoutRow.rests (h : s.expires p reason (started s) = false) : exec c s = .next s := by
  rw [row.runs]
  exact congrArg _ (awake_self (if_neg (by rw [h]; exact Bool.false_ne_true)))

theorem TimeoutRow.acts (up : Awake s) (h : s.expires p reason (started s) = true) :
    exec c s = .next (timeoutEffects p reason detail (s.modStats p count)) := by
  rw [row.runs, awake_of_awake up, if_pos h]

end

/-! ### What an expiry does (R96) -/

/-- The expiry counted, both lines released. -/
def State.timed (s : State) (p : PortId) (count : Stats → Stats) : State :=
  s.modPort p fun P => { P with sclDriven := false, sdaDriven := false, tied := [], stats := count P.stats }

theorem port_timed : (s.timed p count).port p =
    { s.port p with sclDriven := false, sdaDriven := false, tied := [], stats := count (s.port p).stats } :=
  (port_modPort ..).trans (if_pos rfl)

theorem timed_eq : (releaseLines p (s.modStats p count)).modPort p (fun P => { P with tied := [] }) = s.timed p count := by
  unfold releaseLines
  rw [modStats_eq, modPort_modPort, modPort_modPort]
  rfl

/-- In STOPPING the attempt ends without an outcome (R85, R195). -/
theorem timeoutEffects_quiet (quiet : (s.port p).eng.quiet = true) :
    timeoutEffects p reason detail (s.modStats p count) =
      endQuiet p ((s.timed p count).modPort p fun P => { P with state := .observing }) := by
  unfold timeoutEffects
  rw [timed_eq]
  exact if_pos (by rw [port_timed]; exact quiet)

section

variable (loud : (s.port p).eng.quiet = false) (still : (s.port p).tgt.transfer = .none)
include loud still

/-- Without an attempt the port just leaves its state (R97, R100). -/
theorem timeoutEffects_plain (none : (s.port p).eng.phase = .none) :
    timeoutEffects p reason detail (s.modStats p count) = leaveOnTimeout p reason (s.timed p count) := by
  have idle : (((s.timed p count).port p).eng.phase != .none) = false := by
    rw [port_timed, show ((s.port p).eng.phase != .none) = false from bne_eq_false_iff_eq.mpr none]
  unfold timeoutEffects
  dsimp only
  rw [timed_eq, if_neg (by rw [port_timed, loud]; exact Bool.false_ne_true), idle, if_neg Bool.false_ne_true,
    Bool.false_and, Bool.false_and, if_neg Bool.false_ne_true]
  exact congrArg _ (if_pos (by rw [port_timed]; exact still))

omit still in
/-- An attempt ends BUS_TIMEOUT before the port leaves its state (R96, R97, R100). -/
theorem timeoutEffects_attempt (busy : (s.port p).eng.phase ≠ .none)
    (is : timeoutAttempt p detail (s.timed p count) = u) (after : (u.port p).tgt.transfer = .none)
    (leaves : leaveOnTimeout p reason u = v)
    (ends : (v.port p).disablePending = false ∨ (v.port p).inService ≠ none) :
    timeoutEffects p reason detail (s.modStats p count) = v := by
  have attempt : (((s.timed p count).port p).eng.phase != .none) = true := by
    rw [port_timed]
    exact bne_iff_ne.mpr busy
  unfold timeoutEffects
  dsimp only
  rw [timed_eq, if_neg (by rw [port_timed, loud]; exact Bool.false_ne_true), attempt, if_pos rfl, is, if_pos after, leaves,
    Bool.true_and]
  refine if_neg fun both => ?_
  obtain ⟨pending, free⟩ := Bool.and_eq_true_iff.mp both
  rcases ends with not | serves
  · rw [not] at pending
    cases pending
  · exact serves (Option.isNone_iff_eq_none.mp free)

end

/-! ### The port leaves its state (R97, R100) -/

/-- The port in its recovery procedure, from the first wait (R97). -/
def Port.recovers (P : Port) (now : Word) : Port :=
  { P with
    state := .recovering, inStep := false, awaitAddr := false, recovery := .waitScl now, sclDriven := false,
    sdaDriven := false, idleFrom := now, clockLowFrom := now, stuckDataFrom := now }

theorem startRecovery_eq : startRecovery p s = s.modPort p fun P => P.recovers s.timebase := by
  unfold startRecovery touch
  rw [modPort_modPort]
  rfl

theorem leaveOnTimeout_recovers (recovery : (s.port p).cfg.recovery = true) :
    leaveOnTimeout p reason s = s.modPort p fun P => P.recovers s.timebase :=
  (if_pos recovery).trans startRecovery_eq

theorem leaveOnTimeout_faults (recovery : (s.port p).cfg.recovery = false) :
    leaveOnTimeout p reason s = enterFaulted p reason s := if_neg (by rw [recovery]; exact Bool.false_ne_true)

theorem failing_eq : s.failing p reason = { s with
    ports := (s.failing p reason).ports, mgmt := (s.failing p reason).mgmt } := settled_failing.eq

/-- The port after an expiry without service, or with one that drains. -/
def Port.timedOut (P : Port) (reason : FaultReason) (now : Word) : Port :=
  if P.cfg.recovery then P.recovers now else P.failed reason

/-- Nothing is in service but what drains or waits for the holding list: the port alone, and the command in hand, change. -/
theorem leaveOnTimeout_rests (told : (s.port p).tgt.disableTold = false)
    (rests : (s.port p).inService = none ∨
      ∃ k x, (s.port p).inService = some k ∧ s.txn k = some x ∧ (x.state = .draining ∨ x.state = .posting)) :
    (leaveOnTimeout p reason s).port p = (s.port p).timedOut reason s.timebase ∧
      leaveOnTimeout p reason s = { s with
        ports := (leaveOnTimeout p reason s).ports, mgmt := (leaveOnTimeout p reason s).mgmt } := by
  cases recovery : (s.port p).cfg.recovery with
  | true =>
    rw [leaveOnTimeout_recovers recovery, Port.timedOut, if_pos recovery, port_modPort, if_pos rfl]
    exact ⟨rfl, rfl⟩
  | false =>
    have fails : enterFaulted p reason s = s.failing p reason := by
      rcases rests with none | ⟨k, x, serves, held, rests⟩
      · rw [enterFaulted_failing none, told]
        rfl
      · have port : (s.failing p reason).port p = (s.port p).failed reason := (failing_port p).trans (if_pos rfl)
        have service := (faultService_of (s := s.failing p reason) (p := p) (reason := reason) (by rw [port]; exact serves)
          (by rw [failing_eq]; exact held)).2.2 rests
        rw [enterFaulted_serving told (by rw [service, port]; rfl), service]
    rw [leaveOnTimeout_faults recovery, fails, Port.timedOut, if_neg (by rw [recovery]; exact Bool.false_ne_true)]
    exact ⟨(failing_port p).trans (if_pos rfl), failing_eq⟩

theorem timedOut_keeps {P : Port} {now : Word} : (P.timedOut reason now).list = P.list ∧
    (P.timedOut reason now).inService = P.inService ∧ (P.timedOut reason now).pendingResult = P.pendingResult ∧
    (P.timedOut reason now).inbound = P.inbound ∧ (P.timedOut reason now).disablePending = P.disablePending ∧
    (P.timedOut reason now).stats.completed = P.stats.completed := by
  unfold Port.timedOut
  split <;> exact ⟨rfl, rfl, rfl, rfl, rfl, rfl⟩

section

variable {now : Word} (eq : v = { u with ports := v.ports, mgmt := v.mgmt })
  (port : v.port p = (u.port p).timedOut reason now)
include eq port

theorem RecordPosted.timedOut (h : RecordPosted s u p k x) : RecordPosted s v p k x := by
  obtain ⟨comp, entry, listed, service, result, counted, rqs, cqs⟩ := h
  obtain ⟨list, serving, pending, -, -, completed⟩ := timedOut_keeps (P := u.port p) (reason := reason) (now := now)
  refine ⟨by rw [eq]; exact comp, by rw [eq]; exact entry, ?_, ?_, ?_, ?_, by rw [eq]; exact rqs, by rw [eq]; exact cqs⟩
  all_goals rw [port]
  exacts [list.trans listed, serving.trans service, pending.trans result, completed.trans counted]

theorem Drains.timedOut {bytes : List (Nat × Byte)} (h : Drains s u p k x bytes) : Drains s v p k x bytes := by
  obtain ⟨entry, accesses, service, listed, inbound, counted, comp, rqs, cqs, others⟩ := h
  obtain ⟨list, serving, -, received, -, completed⟩ := timedOut_keeps (P := u.port p) (reason := reason) (now := now)
  refine ⟨by rw [eq]; exact entry, by rw [eq]; exact accesses, ?_, ?_, ?_, ?_, by rw [eq]; exact comp,
    by rw [eq]; exact rqs, by rw [eq]; exact cqs, fun j ne => ?_⟩
  · rw [port]
    exact serving.trans service
  · rw [port]
    exact list.trans listed
  · rw [port]
    exact received.trans inbound
  · rw [port]
    exact completed.trans counted
  · rw [eq]
    exact others j ne

end

theorem CanPost.undisabled (h : CanPost s p t) : (s.port p).disablePending = false := by
  obtain ⟨-, -, -, -, free⟩ := h
  exact free

theorem RecordPosted.leaves (h : RecordPosted s u p k x) : (u.port p).inService = none := by
  obtain ⟨-, -, -, service, -⟩ := h
  exact service

theorem RecordPosted.counted (h : RecordPosted s u p k x) :
    (u.port p).stats.completed = (s.port p).stats.completed + 1 := by
  obtain ⟨-, -, -, -, -, counted, -⟩ := h
  exact counted

theorem Drains.serving {bytes : List (Nat × Byte)} (h : Drains s u p k x bytes) : (u.port p).inService = some k := by
  obtain ⟨-, -, service, -⟩ := h
  exact service

theorem Drains.counted {bytes : List (Nat × Byte)} (h : Drains s u p k x bytes) :
    (u.port p).stats.completed = (s.port p).stats.completed := by
  obtain ⟨-, -, -, -, -, counted, -⟩ := h
  exact counted

/-! ### The attempt in progress (R96) -/

/-- The port whose attempt an expiry cuts off. -/
def Port.cutOff (P : Port) (count : Stats → Stats) : Port :=
  { P with
    sclDriven := false, sdaDriven := false, tied := [], stats := count P.stats,
    eng := { P.eng with segment := P.eng.segmentUnderWay } }

/-- The state in which the attempt that an expiry cuts off ends, no disable being told before (R59). -/
def State.cutOff (s : State) (p : PortId) (count : Stats → Stats) : State :=
  s.modPort p fun P => { P.cutOff count with disablePending := false }

theorem port_cutOff : (s.cutOff p count).port p = { (s.port p).cutOff count with disablePending := false } :=
  (port_modPort ..).trans (if_pos rfl)

theorem timeoutAttempt_eq : timeoutAttempt p detail (s.timed p count) =
    (finishAttempt p (.result .busTimeout detail) s.timebase (s.cutOff p count)).modPort p
      fun P => { P with disablePending := (s.port p).disablePending } := by
  unfold timeoutAttempt
  dsimp only
  rw [port_timed, State.timed, modPort_modPort]
  rfl

theorem finished_pending {P Q : Port} {b c : Bool} (h : ({ P with disablePending := b } : Port).Finished Q) :
    ({ P with disablePending := c } : Port).Finished { Q with disablePending := c } :=
  (congrArg (fun Q : Port => { Q with disablePending := c }) h :)

/-- What of a port that has ended its attempt and left its state. -/
def TimedOutAs (s : State) (p : PortId) (count : Stats → Stats) (u : State) (completed : Word) : Prop :=
  (u.port p).state = (if (s.port p).cfg.recovery then .recovering else .faulted) ∧
  (u.port p).stats = { count (s.port p).stats with
    completed := (s.port p).stats.completed + completed,
    faults := (s.port p).stats.faults + if (s.port p).cfg.recovery then 0 else 1 } ∧
  (u.port p).eng = Engine.reset ∧ (u.port p).inStep = false ∧ (u.port p).tied = [] ∧
  (u.port p).sclDriven = false ∧ (u.port p).sdaDriven = false

theorem timedOutAs_of {n now : Word} (faults : ∀ x, (count x).faults = x.faults)
    (finished : ((s.port p).cutOff count).Finished (u.port p))
    (counted : (u.port p).stats.completed = (s.port p).stats.completed + n)
    (port : v.port p = (u.port p).timedOut reason now) : TimedOutAs s p count v n := by
  have stats : (u.port p).stats = { count (s.port p).stats with completed := (s.port p).stats.completed + n } := by
    rw [← counted]
    exact (congrArg Port.stats finished :)
  have cfg : (u.port p).cfg = (s.port p).cfg := (congrArg Port.cfg finished :)
  have eng : (u.port p).eng = Engine.reset := congrArg Port.eng finished
  have tied : (u.port p).tied = [] := congrArg Port.tied finished
  unfold TimedOutAs
  rw [port, Port.timedOut, cfg, ← faults]
  cases (s.port p).cfg.recovery with
  | true =>
    refine ⟨rfl, ?_, eng, rfl, tied, rfl, rfl⟩
    rw [if_pos rfl, if_pos rfl, add_zero]
    exact stats
  | false =>
    refine ⟨rfl, ?_, eng, rfl, tied, rfl, rfl⟩
    rw [if_neg Bool.false_ne_true, if_neg Bool.false_ne_true]
    exact (congrArg (fun c : Stats => { c with faults := c.faults + 1 }) stats :)

/-- The state before an expiry, no disable being told before its attempt has ended (R59). -/
def State.untold (s : State) (p : PortId) : State := s.modPort p fun P => { P with disablePending := false }

theorem port_untold : (s.untold p).port p = { s.port p with disablePending := false } :=
  (port_modPort ..).trans (if_pos rfl)

theorem onBus_cutOff (completed : ∀ x, (count x).completed = x.completed) : OnBus p (s.untold p) (s.cutOff p count) := by
  refine ⟨rfl, ?_, ?_, ?_, ?_, ?_⟩ <;> rw [port_untold, port_cutOff]
  exacts [rfl, rfl, rfl, completed _]

theorem Engine.segmentUnderWay_eq {E : Engine} : E.segmentUnderWay =
    if E.phase = .opening ∧ E.restart = true then E.segment + 1 else E.segment := by
  simp only [Engine.segmentUnderWay, Bool.and_eq_true, decide_eq_true_eq]

/-- The state in which an expiry has ended the attempt, before the port leaves its state. -/
def State.attemptOut (s : State) (p : PortId) (detail : Byte) (count : Stats → Stats) : State :=
  timeoutAttempt p detail (s.timed p count)

theorem port_attemptOut : (s.attemptOut p detail count).port p = {
    (finishAttempt p (.result .busTimeout detail) s.timebase (s.cutOff p count)).port p with
      disablePending := (s.port p).disablePending } := by
  rw [State.attemptOut, timeoutAttempt_eq, port_modPort, if_pos rfl]

theorem keepsService_pending {b : Bool} : KeepsService fun P => { P with disablePending := b } :=
  fun _ => ⟨rfl, rfl, rfl, rfl, rfl⟩

theorem attemptOut_finished (h : ((s.cutOff p count).port p).Finished
    ((finishAttempt p (.result .busTimeout detail) s.timebase (s.cutOff p count)).port p)) :
    ((s.port p).cutOff count).Finished ((s.attemptOut p detail count).port p) := by
  rw [port_cutOff] at h
  rw [port_attemptOut]
  exact finished_pending (c := (s.port p).disablePending) h

section

variable (completed : ∀ x, (count x).completed = x.completed) (served : (s.port p).inService = some k)
  (held : s.txn k = some t)
include completed served held

theorem attemptOut_posts (unread : (s.port p).eng.readCount = 0) (can : CanPost s p t) :
    RecordPosted s (s.attemptOut p detail count) p k
      { t.finished ((s.port p).cutOff count).eng .busTimeout detail s.timebase with state := .posting } ∧
      ((s.port p).cutOff count).Finished ((s.attemptOut p detail count).port p) := by
  have able : CanPost (s.untold p) p t := can.congr rfl rfl rfl rfl rfl (by rw [port_untold]; exact can.undisabled.symm)
  obtain ⟨posted, finished, -⟩ := (onBus_cutOff (s := s) (p := p) completed).posts (r := .busTimeout) (d := detail)
    (now := s.timebase) (by rw [port_untold]; exact served) held (by rw [port_cutOff]; exact unread) (.inl nofun) able
  refine ⟨?_, attemptOut_finished finished⟩
  rw [State.attemptOut, timeoutAttempt_eq]
  have moved := (posted.base rfl (by rw [port_untold]) (by rw [port_untold])).moves
    (keepsService_pending (b := (s.port p).disablePending))
  rw [port_cutOff] at moved
  exact moved

theorem attemptOut_drains (read : (s.port p).eng.readCount ≠ 0) (origin : t.origin = .rq q) :
    Drains s (s.attemptOut p detail count) p k
      { t.finished ((s.port p).cutOff count).eng .busTimeout detail s.timebase with state := .posting }
      (s.port p).inbound ∧ ((s.port p).cutOff count).Finished ((s.attemptOut p detail count).port p) := by
  obtain ⟨drained, finished, -⟩ := (onBus_cutOff (s := s) (p := p) completed).drains (r := .busTimeout) (d := detail)
    (now := s.timebase) (by rw [port_untold]; exact served) held (by rw [port_cutOff]; exact read) origin
  refine ⟨?_, attemptOut_finished finished⟩
  rw [State.attemptOut, timeoutAttempt_eq]
  have moved := (drained.base rfl (by rw [port_untold]) (by rw [port_untold])).moves
    (keepsService_pending (b := (s.port p).disablePending))
  rw [port_cutOff, port_untold] at moved
  exact moved

end

/-- After its attempt the port leaves its state (R97, R100). -/
theorem attemptOut_leaves (loud : (s.port p).eng.quiet = false) (still : (s.port p).tgt.transfer = .none)
    (told : (s.port p).tgt.disableTold = false) (busy : (s.port p).eng.phase ≠ .none)
    (finished : ((s.port p).cutOff count).Finished ((s.attemptOut p detail count).port p))
    (rests : ((s.attemptOut p detail count).port p).inService = none ∧ (s.port p).disablePending = false ∨
      ∃ k x, ((s.attemptOut p detail count).port p).inService = some k ∧ (s.attemptOut p detail count).txn k = some x ∧
        x.state = .draining) :
    let u := s.attemptOut p detail count
    let v := timeoutEffects p reason detail (s.modStats p count)
    v.port p = (u.port p).timedOut reason u.timebase ∧ v = { u with ports := v.ports, mgmt := v.mgmt } := by
  have tgt : ((s.attemptOut p detail count).port p).tgt = (s.port p).tgt := (congrArg Port.tgt finished :)
  have leaves := leaveOnTimeout_rests (p := p) (reason := reason) (s := s.attemptOut p detail count) (by rw [tgt]; exact told)
    (rests.imp And.left fun ⟨k, x, serves, holds, drains⟩ => ⟨k, x, serves, holds, .inl drains⟩)
  obtain ⟨-, serving, -, -, pending, -⟩ := timedOut_keeps (P := (s.attemptOut p detail count).port p) (reason := reason)
    (now := (s.attemptOut p detail count).timebase)
  have effects : timeoutEffects p reason detail (s.modStats p count) =
      leaveOnTimeout p reason (s.attemptOut p detail count) := by
    refine timeoutEffects_attempt loud busy rfl (by exact (congrArg Target.transfer tgt).trans still) rfl ?_
    rw [leaves.1]
    rcases rests with ⟨-, free⟩ | ⟨k, x, serves, -⟩
    · refine .inl (pending.trans ?_)
      rw [port_attemptOut]
      exact free
    · exact .inr (by rw [serving, serves]; nofun)
  dsimp only
  rw [effects]
  exact leaves

theorem timedOut_timed {now : Word} (faults : ∀ x, (count x).faults = x.faults) :
    let Q := ((u.timed p count).port p).timedOut reason now
    Q.state = (if (u.port p).cfg.recovery then .recovering else .faulted) ∧
      Q.stats = { count (u.port p).stats with
        faults := (u.port p).stats.faults + if (u.port p).cfg.recovery then 0 else 1 } ∧
      Q.sclDriven = false ∧ Q.sdaDriven = false ∧ Q.tied = [] := by
  dsimp only
  rw [port_timed, Port.timedOut, ← faults]
  cases (u.port p).cfg.recovery with
  | true =>
    rw [if_pos rfl, if_pos rfl, if_pos rfl, add_zero]
    exact ⟨rfl, rfl, rfl, rfl, rfl⟩
  | false =>
    rw [if_neg Bool.false_ne_true, if_neg Bool.false_ne_true, if_neg Bool.false_ne_true]
    exact ⟨rfl, rfl, rfl, rfl, rfl⟩

/-- An expiry taken after the end of an attempt finds its port IDLE (R96, log entry 57). -/
theorem TimeoutRow.acts_idle {started : State → Word} (row : TimeoutRow p c started reason detail count) (run : Running u)
    (on : (u.port p).cfg.busTimeout ≠ 0) (idle : (u.port p).state = .idle) (tied : reason ∈ (u.port p).tied)
    (eng : (u.port p).eng = Engine.reset) (still : (u.port p).tgt.transfer = .none)
    (told : (u.port p).tgt.disableTold = false) (none : (u.port p).inService = none) :
    ∃ v, exec c u = .next v ∧ v.slots = u.slots ∧ v.comp = u.comp ∧
      (v.port p).state = (if (u.port p).cfg.recovery then .recovering else .faulted) ∧
      (v.port p).stats = { count (u.port p).stats with
        faults := (u.port p).stats.faults + if (u.port p).cfg.recovery then 0 else 1 } ∧
      (v.port p).sclDriven = false ∧ (v.port p).sdaDriven = false ∧ (v.port p).tied = [] := by
  have acts := row.acts run.1 (expires_iff.mpr ⟨timersRun_iff.mpr
    ⟨on, by rw [idle]; exact List.mem_cons_self, .inl run.2⟩, .inr tied⟩)
  rw [timeoutEffects_plain (by rw [eng]; rfl) still (by rw [eng]; rfl)] at acts
  obtain ⟨port, eq⟩ := leaveOnTimeout_rests (s := u.timed p count) (p := p) (reason := reason)
    (by rw [port_timed]; exact told) (.inl (by rw [port_timed]; exact none))
  refine ⟨_, acts, by rw [eq]; rfl, by rw [eq]; rfl, ?_⟩
  rw [port]
  exact timedOut_timed row.faults

theorem endQuiet_serving (serves : (s.port p).inService = some k) (held : s.txn k = some t) : endQuiet p s =
    (s.modPort p fun P => { P with eng := Engine.reset, sclDriven := false, sdaDriven := false }).setSlot k
      (.txn { t with state := .ready }) := by
  unfold endQuiet
  dsimp only
  rw [port_modPort, if_pos rfl, serves]
  dsimp only
  rw [modTxn_of_txn (t := t) (by exact held)]

end Sys2Proof.Machine

namespace Sys2Proof.Proofs

open Sys2Proof.Machine

/-- Settles O52: both rows by `TimeoutRow`. -/
theorem timeoutsExpire : Obligations.TimeoutsExpire := by
  intro s p c since reason detail count which passed expires
  obtain ⟨started, rfl, row⟩ := timeoutRow_of which
  refine ⟨row.reached s, fun not => row.rests ?_, fun run on state expired still told loud => ?_, ?_, ?_⟩
  · refine Bool.eq_false_iff.mpr fun h => ?_
    obtain ⟨runs, expired⟩ := expires_iff.mp h
    obtain ⟨on, state, ctrl⟩ := timersRun_iff.mp runs
    rcases not with off | elsewhere | halted | early
    · exact on off
    · simp only [List.mem_cons, List.not_mem_nil, or_false] at state elsewhere
      rcases state with e | e | e | e <;> simp [e] at elsewhere
    · rcases ctrl with e | ⟨e, -⟩ <;> cases e.symm.trans halted
    · exact early expired
  · have acts := row.acts run.1 (expires_iff.mpr ⟨timersRun_iff.mpr ⟨on, state, .inl run.2⟩, expired⟩)
    rw [acts]
    refine ⟨fun recovery none => ?_, fun recovery none idle => ?_,
      fun k t recovery none serves held states can => ?_, fun k t busy serves held active => ?_⟩
    · rw [timeoutEffects_plain loud still none, leaveOnTimeout_recovers (by rw [port_timed]; exact recovery), State.timed,
        modPort_modPort]
      rfl
    · have port : ((s.timed p count).failing p reason).port p = ((s.timed p count).port p).failed reason :=
        (failing_port p).trans (if_pos rfl)
      have settled := settled_failing (s := s.timed p count) (p := p) (x := reason)
      have fails : leaveOnTimeout p reason (s.timed p count) = (s.timed p count).failing p reason := by
        rw [leaveOnTimeout_faults (by rw [port_timed]; exact recovery),
          enterFaulted_failing (by rw [port_timed]; exact idle), port_timed, told]
        rfl
      rw [timeoutEffects_plain loud still none, fails]
      refine ⟨_, rfl, ?_, failing_latch, fun e command => settled.command e .enable nofun command, failing_eq,
        fun r other => ?_⟩
      · rw [port, port_timed, ← row.faults]
        rfl
      · rw [failing_port, if_neg other.symm]
        exact (port_modPort ..).trans (if_neg other.symm)
    · have base : FaultBase p s (s.timed p count) := by
        refine ⟨?_, ?_, ?_, ?_, ?_, rfl, rfl, rfl, rfl, rfl⟩ <;> rw [port_timed]
        exact row.completed _
      obtain ⟨⟨state, why, faults⟩, latch, ends⟩ :=
        enterFaulted_service (x := reason) base (by rw [port_timed]; exact told) serves held states can
      rw [timeoutEffects_plain loud still none, leaveOnTimeout_faults (by rw [port_timed]; exact recovery)]
      refine ⟨_, rfl, state, why, faults.trans ?_, latch, ends⟩
      rw [port_timed]
      exact congrArg (· + 1) (row.faults _)
    · intro done left
      have is : ({ t.finished ((s.port p).cutOff count).eng .busTimeout detail s.timebase with state := .posting } : Txn) =
          done := congrArg (fun n : Nat => ({ t with
            state := .posting, started := some (t.started.getD s.timebase), result := .busTimeout, detail := detail,
            segIndex := n, writeCount := (s.port p).eng.writeCount, readCount := (s.port p).eng.readCount,
            endTime := s.timebase } : Txn)) Engine.segmentUnderWay_eq
      refine ⟨fun unread can => ?_, fun q read origin => ?_⟩
      · obtain ⟨posted, finished⟩ := attemptOut_posts (detail := detail) row.completed serves held unread can
        rw [is] at posted
        have leaves := attemptOut_leaves (reason := reason) loud still told busy finished
          (.inl ⟨posted.leaves, can.undisabled⟩)
        exact ⟨_, rfl, posted.timedOut leaves.2 leaves.1, timedOutAs_of row.faults finished posted.counted leaves.1⟩
      · obtain ⟨drained, finished⟩ := attemptOut_drains (detail := detail) row.completed serves held read origin
        rw [is] at drained
        have leaves := attemptOut_leaves (reason := reason) loud still told busy finished
          (.inr ⟨k, _, drained.serving, drained.1, rfl⟩)
        refine ⟨_, rfl, drained.timedOut leaves.2 leaves.1, timedOutAs_of row.faults finished ?_ leaves.1⟩
        rw [add_zero]
        exact drained.counted
  · intro k t r d run on late still told loud closing decided unread serves held can keeps
    have stop := exec_stop_ends run.1 serves held (mayStop_iff.mpr (.inl closing)) loud told (.inl decided)
    have bus := onBus_stopMade (p := p) told
    obtain ⟨posted, finished, only⟩ := bus.posts (r := r) (d := d) (now := s.timebase) serves held
      (by rw [port_stopMade told]; exact unread) keeps can
    rw [port_stopMade told] at finished posted
    generalize finishAttempt p (.result r d) s.timebase (s.stopMade p) = u at *
    have link : u.link = s.link := by rw [only.1, bus.eq]
    have cfg : (u.port p).cfg = (s.port p).cfg := (congrArg Port.cfg finished :)
    have eng : (u.port p).eng = Engine.reset := congrArg Port.eng finished
    have tgt : (u.port p).tgt = (s.port p).tgt := (congrArg Port.tgt finished :)
    have idle : (u.port p).state = .idle := congrArg Port.state finished
    have tied : (u.port p).tied = (s.port p).tied ++ s.timeoutsReached p := congrArg Port.tied finished
    have run' : Running u := by
      unfold Running
      rw [link]
      exact run
    have done : ({ t.finished ((s.port p).stopMade (s.timeoutsReached p) s.timebase).eng r d s.timebase with
        state := .posting } : Txn) = { t with
          state := .posting, started := some (t.started.getD s.timebase), result := r, detail := d,
          segIndex := (s.port p).eng.segment, writeCount := (s.port p).eng.writeCount, readCount := 0,
          endTime := s.timebase } := congrArg (fun n : Nat => ({ t with
            state := .posting, started := some (t.started.getD s.timebase), result := r, detail := d,
            segIndex := (s.port p).eng.segment, writeCount := (s.port p).eng.writeCount, readCount := n,
            endTime := s.timebase } : Txn)) unread
    rw [done] at posted
    obtain ⟨v, acts, slots, comp, state, rest⟩ := row.acts_idle run' (by rw [cfg]; exact on) idle
      (by rw [tied]; exact List.mem_append_right _ ((row.reached s).mpr ⟨on, late⟩)) eng (by rw [tgt]; exact still)
      (by rw [tgt]; exact told) posted.leaves
    rw [cfg] at state rest
    exact ⟨u, v, stop, idle, posted, acts, slots, comp, state, rest⟩
  · intro k t up stopping quiet on state expired serves held
    rw [row.acts up (expires_iff.mpr ⟨timersRun_iff.mpr ⟨on, state, .inr ⟨stopping, quiet⟩⟩, expired⟩),
      timeoutEffects_quiet quiet, endQuiet_serving (p := p) (k := k) (t := t)
        (s := (s.timed p count).modPort p fun P => { P with state := .observing })
        (by rw [port_modPort, if_pos rfl, port_timed]; exact serves) held, State.timed, modPort_modPort, modPort_modPort]

end Sys2Proof.Proofs
end
